-- ==== Sys2Proof/Word.lean ====
section
/-! DEFINITION. The bit-vector widths the spec names (00_scope R8, R11; 30_encoding R111). Every value is unsigned (R12). -/

namespace Sys2Proof

/-- A 4-bit field of an instruction word, and a register number (30_encoding R111). -/
abbrev Nibble := BitVec 4

/-- A general register, a timer, a memory byte, a pixel cell or the immediate NN. -/
abbrev Byte := BitVec 8

/-- The 12-bit address field NNN (30_encoding R111). -/
abbrev Addr12 := BitVec 12

/-- An instruction word, PC, I or a stack entry. -/
abbrev Word := BitVec 16

end Sys2Proof
end

