-- ==== Sys2Proof/Syntax.lean ====
section
/-! DEFINITION. The instructions: one constructor for each row of spec/opcode_table.json (30_encoding R116, R122). -/

namespace Sys2Proof

/-- The 23 instructions of R116 and the unrecognized class of R118. `x` and `y` are the register numbers X and Y, `nn` is
the immediate NN, `nnn` is the address NNN, and `w` is the whole word of an unrecognized instruction. -/
inductive Instr where
  | halt
  | cls
  | ret
  | jp (nnn : Addr12)
  | call (nnn : Addr12)
  | seImm (x : Nibble) (nn : Byte)
  | sneImm (x : Nibble) (nn : Byte)
  | seReg (x y : Nibble)
  | ldImm (x : Nibble) (nn : Byte)
  | addImm (x : Nibble) (nn : Byte)
  | ldReg (x y : Nibble)
  | orReg (x y : Nibble)
  | andReg (x y : Nibble)
  | xorReg (x y : Nibble)
  | addReg (x y : Nibble)
  | sub (x y : Nibble)
  | shr (x y : Nibble)
  | subn (x y : Nibble)
  | shl (x y : Nibble)
  | sneReg (x y : Nibble)
  | ldI (nnn : Addr12)
  | jpV0 (nnn : Addr12)
  | rnd (x : Nibble) (nn : Byte)
  | unrecognized (w : Word)
  deriving DecidableEq, Repr

end Sys2Proof
end

