-- ==== Sys2Proof/WellFormed.lean ====
section
/-! DEFINITION. Well-formed instructions: an `unrecognized` term carries one of the words of 30_encoding R118; every other
term is well formed, since its fields have the width of their bits (R111). -/

namespace Sys2Proof

/-- The table of unrecognized words of R118, row by row, on the value of the word: the first digit is nibble0 and the last is
nibble3. -/
def isUnrecognizedWord (w : Word) : Bool :=
  match w.toNat / 0x1000 with
  | 0x0 => w.toNat != 0x0000 && w.toNat != 0x00E0 && w.toNat != 0x00EE
  | 0x5 => w.toNat % 0x10 != 0
  | 0x8 => 0x8 ≤ w.toNat % 0x10 && w.toNat % 0x10 != 0xE
  | 0x9 => w.toNat % 0x10 != 0
  | 0xD => true
  | 0xE => true
  | 0xF => true
  | _ => false

/-- The check on an instruction (R112: every decoded instruction is well formed). -/
def Instr.wf : Instr → Bool
  | .unrecognized w => isUnrecognizedWord w
  | .halt | .cls | .ret => true
  | .jp _ | .call _ | .ldI _ | .jpV0 _ => true
  | .seImm _ _ | .sneImm _ _ | .ldImm _ _ | .addImm _ _ | .rnd _ _ => true
  | .seReg _ _ | .sneReg _ _ | .ldReg _ _ | .orReg _ _ | .andReg _ _ | .xorReg _ _ => true
  | .addReg _ _ | .sub _ _ | .shr _ _ | .subn _ _ | .shl _ _ => true

/-- An instruction some word stands for. -/
abbrev WellFormed (i : Instr) : Prop := i.wf = true

end Sys2Proof
end

