-- ==== Sys2Proof/Decode.lean ====
section
/-! DEFINITION. The decoder (30_encoding R110 to R119; 40_cycle R145), its bytes form, and the encoder written from the same
table (R116). -/

namespace Sys2Proof

/-! ### The fields of a word (R111) -/

/-- nibble0, w[15:12]. -/
def nibble0 (w : Word) : Nibble := w.extractLsb' 12 4

/-- regX, nibble1, w[11:8]. -/
def regX (w : Word) : Nibble := w.extractLsb' 8 4

/-- regY, nibble2, w[7:4]. -/
def regY (w : Word) : Nibble := w.extractLsb' 4 4

/-- count4, nibble3, w[3:0]. -/
def count4 (w : Word) : Nibble := w.extractLsb' 0 4

/-- imm8 (NN), w[7:0]. -/
def imm8 (w : Word) : Byte := w.extractLsb' 0 8

/-- addr12 (NNN), w[11:0]. -/
def addr12 (w : Word) : Addr12 := w.extractLsb' 0 12

/-! ### Dispatch (R115, R116) -/

/-- The 0x8 family, selected by nibble3 (R117). -/
def decodeAlu (w : Word) : Instr :=
  match (count4 w).toNat with
  | 0x0 => .ldReg (regX w) (regY w)
  | 0x1 => .orReg (regX w) (regY w)
  | 0x2 => .andReg (regX w) (regY w)
  | 0x3 => .xorReg (regX w) (regY w)
  | 0x4 => .addReg (regX w) (regY w)
  | 0x5 => .sub (regX w) (regY w)
  | 0x6 => .shr (regX w) (regY w)
  | 0x7 => .subn (regX w) (regY w)
  | 0xE => .shl (regX w) (regY w)
  | _ => .unrecognized w

/-- Steps 2 to 4 of R115, on nibble0 and, in the families 5, 8 and 9, on nibble3 too. -/
def decodeFamily (w : Word) : Instr :=
  match (nibble0 w).toNat with
  | 0x1 => .jp (addr12 w)
  | 0x2 => .call (addr12 w)
  | 0x3 => .seImm (regX w) (imm8 w)
  | 0x4 => .sneImm (regX w) (imm8 w)
  | 0x5 => if count4 w = 0x0#4 then .seReg (regX w) (regY w) else .unrecognized w
  | 0x6 => .ldImm (regX w) (imm8 w)
  | 0x7 => .addImm (regX w) (imm8 w)
  | 0x8 => decodeAlu w
  | 0x9 => if count4 w = 0x0#4 then .sneReg (regX w) (regY w) else .unrecognized w
  | 0xA => .ldI (addr12 w)
  | 0xB => .jpV0 (addr12 w)
  | 0xC => .rnd (regX w) (imm8 w)
  | _ => .unrecognized w

/-- Decode, pure and total on words (R112, R145): the exact words first, then the families (R115). -/
def decode (w : Word) : Instr :=
  if w = 0x0000#16 then .halt
  else if w = 0x00E0#16 then .cls
  else if w = 0x00EE#16 then .ret
  else decodeFamily w

/-! ### Bytes -/

/-- Why a byte sequence gives no instruction. -/
inductive DecodeError where
  /-- Fewer than the two bytes every instruction takes (R120). No cycle meets it: a fetch always reads two bytes. -/
  | truncated
  deriving DecidableEq, Repr

/-- The word of two bytes, the one at the lower address first (20_memory R84). -/
def wordOfBytes (hi lo : Byte) : Word := hi ++ lo

/-- The instruction at the front of a byte sequence, with the bytes after it. -/
def decodeBytes : List Byte → Except DecodeError (Instr × List Byte)
  | hi :: lo :: rest => .ok (decode (wordOfBytes hi lo), rest)
  | _ => .error .truncated

/-- The two bytes of a word as memory holds them, high byte first (R84, R110). -/
def bytesOfWord (w : Word) : List Byte := [w.extractLsb' 8 8, w.extractLsb' 0 8]

/-- The word whose bits the opcode table numbers: the low `nbits` bits of `w`, every bit above them 0. -/
def tableWord (nbits w : Nat) : Word := BitVec.ofNat 16 (w % 2 ^ nbits)

/-- What the decoder reads from the bytes of a table row's word. -/
def decodeTableWord (nbits w : Nat) : Option Instr :=
  match decodeBytes (bytesOfWord (tableWord nbits w)) with
  | .ok (i, _) => some i
  | .error _ => none

/-! ### The encoder (R116) -/

/-- A word of four nibbles, most significant first (R110). -/
def wordOfNibbles (op x y n : Nibble) : Word := op ++ x ++ y ++ n

/-- A word of the register-plus-byte view (R111). -/
def wordOfRegImm (op x : Nibble) (nn : Byte) : Word := op ++ x ++ nn

/-- A word of the 12-bit address view (R111). -/
def wordOfAddr (op : Nibble) (nnn : Addr12) : Word := op ++ nnn

/-- The word of an instruction. -/
def encode : Instr → Word
  | .halt => 0x0000#16
  | .cls => 0x00E0#16
  | .ret => 0x00EE#16
  | .jp nnn => wordOfAddr 0x1#4 nnn
  | .call nnn => wordOfAddr 0x2#4 nnn
  | .seImm x nn => wordOfRegImm 0x3#4 x nn
  | .sneImm x nn => wordOfRegImm 0x4#4 x nn
  | .seReg x y => wordOfNibbles 0x5#4 x y 0x0#4
  | .ldImm x nn => wordOfRegImm 0x6#4 x nn
  | .addImm x nn => wordOfRegImm 0x7#4 x nn
  | .ldReg x y => wordOfNibbles 0x8#4 x y 0x0#4
  | .orReg x y => wordOfNibbles 0x8#4 x y 0x1#4
  | .andReg x y => wordOfNibbles 0x8#4 x y 0x2#4
  | .xorReg x y => wordOfNibbles 0x8#4 x y 0x3#4
  | .addReg x y => wordOfNibbles 0x8#4 x y 0x4#4
  | .sub x y => wordOfNibbles 0x8#4 x y 0x5#4
  | .shr x y => wordOfNibbles 0x8#4 x y 0x6#4
  | .subn x y => wordOfNibbles 0x8#4 x y 0x7#4
  | .shl x y => wordOfNibbles 0x8#4 x y 0xE#4
  | .sneReg x y => wordOfNibbles 0x9#4 x y 0x0#4
  | .ldI nnn => wordOfAddr 0xA#4 nnn
  | .jpV0 nnn => wordOfAddr 0xB#4 nnn
  | .rnd x nn => wordOfRegImm 0xC#4 x nn
  | .unrecognized w => w

end Sys2Proof
end

