-- ==== Sys2Proof/Config.lean ====
section
/-! DEFINITION. What is fixed for a machine: the parameters of 00_scope R8 and R9, and the free value RND of R10. -/

namespace Sys2Proof.Config

/-- MEM_SIZE (R8). -/
abbrev memSize : Nat := 4096

/-- PROG_BASE, the load offset and the first pc (R8). -/
abbrev progBase : Nat := 0x200

/-- MAX_IMAGE, the longest image the load accepts (R8). -/
abbrev maxImage : Nat := 3584

/-- STACK_DEPTH (R8). -/
abbrev stackDepth : Nat := 12

/-- FB_W and FB_H, and the number of framebuffer cells (R8). -/
abbrev fbWidth : Nat := 64
abbrev fbHeight : Nat := 32
abbrev fbSize : Nat := 2048

/-- The values of P_FETCH_OVERRUN (R9): what the fetch does when pc + 1 is past the end of memory. -/
inductive FetchOverrun where
  | reset
  | wrap
  deriving DecidableEq, Repr

/-- The four parameters the source leaves open, taken as a configuration argument (R9). -/
structure Params where
  /-- P_FETCH_OVERRUN. -/
  fetchOverrun : FetchOverrun
  /-- P_JUMP_MIN: the smallest target 1NNN accepts, any 12-bit value. -/
  jumpMin : Addr12
  /-- P_TIMER_ON_CYCLE: every cycle also ticks the timers. -/
  timerOnCycle : Bool
  /-- P_ADD7_PLUS_ONE: 7XNN adds 1 in place of NN. -/
  add7PlusOne : Bool
  deriving DecidableEq, Repr

/-- The defaults this spec chooses (R9). -/
def defaults : Params :=
  { fetchOverrun := .reset, jumpMin := 0x201#12, timerOnCycle := false, add7PlusOne := false }

/-- FREE VALUE. `rnd k` is the byte on the input RND[7:0] at the k-th sample since the machine was made (R10, R214; D18).
It has no body: nothing can be proved of it, so a statement holds for every byte sequence the host may present. Log entry 2. -/
opaque rnd : Nat → Byte

end Sys2Proof.Config
end

