-- ==== Sys2Proof/Machine/State.lean ====
section
/-! DEFINITION. The machine's state (10_state R30 to R50), its reset value (R45), and the reasons a step can stop. -/

namespace Sys2Proof.Machine

/-- The 2-bit status field FAULT (10_state R41): a fatal violation the core has recorded. -/
inductive FaultCode where
  | none
  | stackOverflow
  | stackUnderflow
  | jumpTarget
  deriving DecidableEq, Repr

/-- The 1-bit latch LOAD_STATUS (10_state R50). -/
inductive LoadStatus where
  | ok
  | loadError
  deriving DecidableEq, Repr

/-- One unrecognized-word event (45_9_to_C R216): UNREC_WORD and UNREC_PC. -/
structure UnrecEvent where
  word : Word
  pc : Word
  deriving DecidableEq, Repr

/-- MEM's bytes: cells in rising order of address, none of them 0x00; an unlisted address reads as 0x00 (R45, R83). -/
abbrev Memory := List Host.Cell

/-- The framebuffer's cells, in the same form as `Memory` (10_state R39). -/
abbrev Framebuffer := List Host.Cell

/-- The machine's state. R44: it is exactly the fields up to `loadStatus`; the last three are the model's own. -/
structure State where
  /-- MEM[0x000..0xFFF] (20_memory R80). -/
  mem : Memory
  /-- V[0x0]..V[0xF] (10_state R30); VF is V[0xF] (R31). -/
  v : Vector Byte 16
  /-- I (R33). -/
  iReg : Word
  /-- PC (R34). -/
  pc : Word
  /-- SP, the number of return addresses held (R36). -/
  sp : BitVec 4
  /-- STACK[0..11] (R37). -/
  stack : Vector Word 12
  /-- DT (R38). -/
  dt : Byte
  /-- ST (R38). -/
  st : Byte
  /-- FB[0..2047] (R39). -/
  fb : Framebuffer
  /-- HALTED (R40). -/
  halted : Bool
  /-- FAULT (R41). -/
  fault : FaultCode
  /-- LAST_WORD (R42). -/
  lastWord : Word
  /-- LOAD_STATUS (R50). -/
  loadStatus : LoadStatus
  /-- The MODEL's field: the configuration argument of 00_scope R9, which no operation writes. Log entry 1. -/
  params : Config.Params
  /-- The MODEL's field: the event history of R216, newest first. Log entry 3. -/
  events : List UnrecEvent
  /-- The MODEL's field: how many bytes have been sampled from RND (00_scope R10). Log entry 2. -/
  rndDraws : Nat
  deriving DecidableEq, Repr

/-- Why the model stops. No step reaches either from a state with SP in 0..12 (R36, R142). -/
inductive Fault where
  /-- Raised by a read of MEM at an address of 4096 or more, which 00_scope R14 says is never presented; the fetch guard
  keeps every fetch below it (R142). Safe: the model stops. -/
  | addressOutsideMemory (a : Nat)
  /-- Raised by CALL and RET when SP is 13, 14 or 15, which 10_state R36 says is never reached: no entry of STACK has that
  number. Safe: the model stops. Log entry 5. -/
  | stackIndexOutOfRange (sp : BitVec 4)
  deriving DecidableEq, Repr

/-- Why the model refuses an instruction. -/
inductive Refusal where
  /-- An instruction without a meaning, rejected by name in `exec`; no arm does so now. Safe: the model stops. -/
  | notModelled (mnemonic : String)
  deriving DecidableEq, Repr

/-- What a meaning answers. -/
abbrev Result := Host.Outcome State Fault Refusal

/-- The machine right after reset (R45, R270), with the default parameters (R9), an empty event history and no byte sampled. -/
def State.reset : State :=
  { mem := []
    v := Vector.replicate 16 0x00#8
    iReg := 0x0000#16
    pc := 0x0200#16
    sp := 0#4
    stack := Vector.replicate 12 0x0000#16
    dt := 0x00#8
    st := 0x00#8
    fb := []
    halted := false
    fault := .none
    lastWord := 0x0000#16
    loadStatus := .ok
    params := Config.defaults
    events := []
    rndDraws := 0 }

end Sys2Proof.Machine
end

