-- ==== Sys2Proof/Machine/Ops.lean ====
section
/-! DEFINITION. The named operations over memory, registers, stack, framebuffer, timers and status; fault entry; and the
parts of a cycle that come before execute. -/

namespace Sys2Proof.Machine

/-! ### Byte cells in canonical form -/

/-- The byte at `a`; an unlisted address reads as 0x00. -/
def cellsRead : List Host.Cell → Nat → Byte
  | [], _ => 0x00#8
  | (k, b) :: rest, a => if k = a then b else cellsRead rest a

/-- Write a byte, keeping the keys rising and no 0x00 listed. -/
def cellsWrite : List Host.Cell → Nat → Byte → List Host.Cell
  | [], a, b => if b = 0x00#8 then [] else [(a, b)]
  | (k, c) :: rest, a, b =>
    if a < k then
      if b = 0x00#8 then (k, c) :: rest else (a, b) :: (k, c) :: rest
    else if a = k then
      if b = 0x00#8 then rest else (a, b) :: rest
    else (k, c) :: cellsWrite rest a b

/-- The canonical form: keys rising from `lo` on, each below `size`, and no 0x00 listed. -/
def cellsWf (size : Nat) : Nat → List Host.Cell → Bool
  | _, [] => true
  | lo, (k, b) :: rest => decide (lo ≤ k) && decide (k < size) && decide (b ≠ 0x00#8) && cellsWf size (k + 1) rest

/-! ### MEM (20_memory R80, R81) -/

/-- The canonical form of MEM. -/
def Memory.wf (m : Memory) : Bool := cellsWf Config.memSize 0 m

/-- The byte MEM holds at an address. -/
def Memory.byteAt (m : Memory) (a : Nat) : Byte := cellsRead m a

/-- MemRead(addr, 1) of 00_scope R14: an address outside 0..4095 does not exist. -/
def Memory.read (m : Memory) (a : Nat) : Except Fault Byte :=
  if a < Config.memSize then .ok (m.byteAt a) else .error (.addressOutsideMemory a)

/-- MemWrite(addr, 1, b) of R14. Only the load calls it, and never outside 0..4095 (70_reset_and_hazards R275); such an
address holds nothing, so nothing is stored. -/
def Memory.write (m : Memory) (a : Nat) (b : Byte) : Memory :=
  if a < Config.memSize then cellsWrite m a b else m

/-- Write bytes at rising addresses from `a` on. -/
def Memory.writeBytes : Memory → Nat → List Byte → Memory
  | m, _, [] => m
  | m, a, b :: rest => (m.write a b).writeBytes (a + 1) rest

/-! ### FB (10_state R39) -/

/-- The canonical form of FB. -/
def Framebuffer.wf (f : Framebuffer) : Bool := cellsWf Config.fbSize 0 f

/-- FB[k]. -/
def Framebuffer.cell (f : Framebuffer) (k : Nat) : Byte := cellsRead f k

/-- FB <- 0 in every cell. -/
def State.clearFb (s : State) : State := { s with fb := [] }

/-! ### General registers (R30) -/

/-- V[x]. -/
def State.getV (s : State) (x : Nibble) : Byte := s.v[x.toNat]'x.isLt

/-- V[x] <- b. -/
def State.setV (s : State) (x : Nibble) (b : Byte) : State := { s with v := s.v.set x.toNat b x.isLt }

/-! ### The other registers and the latches -/

/-- I <- a. -/
def State.setI (s : State) (a : Word) : State := { s with iReg := a }

/-- pc <- a. -/
def State.setPc (s : State) (a : Word) : State := { s with pc := a }

/-- HALTED <- 1 (R40). -/
def State.setHalted (s : State) : State := { s with halted := true }

/-- FAULT <- code (R41). -/
def State.setFault (s : State) (code : FaultCode) : State := { s with fault := code }

/-- LAST_WORD <- w (R42). -/
def State.setLastWord (s : State) (w : Word) : State := { s with lastWord := w }

/-- LOAD_STATUS <- r (R50). -/
def State.setLoadStatus (s : State) (r : LoadStatus) : State := { s with loadStatus := r }

/-- MEM <- m, as the load does. -/
def State.setMem (s : State) (m : Memory) : State := { s with mem := m }

/-- emit Unrecognized(word, pc) (45_9_to_C R216): the event joins the history, and no state of the machine changes. -/
def State.emitUnrecognized (s : State) (w : Word) : State := { s with events := ⟨w, s.pc⟩ :: s.events }

/-- draw RND (00_scope R10): the byte on the input, and the state that has sampled it. -/
def State.drawRnd (s : State) : Byte × State := (Config.rnd s.rndDraws, { s with rndDraws := s.rndDraws + 1 })

/-! ### The next PC (40_cycle R147) -/

/-- PC_STEP (00_scope R8), the length of every instruction (30_encoding R120). -/
def pcStep : Word := 2#16

/-- The address after the instruction at pc, in 16 bits (R149). -/
def State.nextPc (s : State) : Word := s.pc + pcStep

/-- pc <- pc + 2. -/
def State.advance (s : State) : State := s.setPc s.nextPc

/-- The skip common to 3XNN, 4XNN, 5XY0 and 9XY0 (42_flow_1_to_5 R172): PC_STEP is added twice when the condition holds. -/
def State.skipIf (s : State) (c : Bool) : State := if c then s.advance.advance else s.advance

/-! ### The call stack (10_state R37) -/

/-- STACK[SP] <- a, then SP <- SP + 1; no state where SP names no entry. -/
def State.push (s : State) (a : Word) : Option State :=
  if h : s.sp.toNat < Config.stackDepth then
    some { s with stack := s.stack.set s.sp.toNat a h, sp := s.sp + 1#4 }
  else none

/-- SP <- SP - 1, with the entry it then names; the entry is not cleared. No answer where SP - 1 names no entry. -/
def State.pop (s : State) : Option (Word × State) :=
  if h : (s.sp - 1#4).toNat < Config.stackDepth then
    some (s.stack[(s.sp - 1#4).toNat]'h, { s with sp := s.sp - 1#4 })
  else none

/-! ### Fault entry (60_exceptions R231) -/

/-- raise Fault(code): FAULT <- code. Nothing else is written, PC keeps the instruction's address, and control goes nowhere
(R231). There is no return from a fault: only reset clears FAULT (R238). -/
def takeFault (code : FaultCode) (s : State) : Result := .next (s.setFault code)

/-- CALL or RET at an SP that names no stack entry (13..15, never reached, R36): the model stops. -/
def stopBeyondStack (s : State) : Result := .fault (.stackIndexOutOfRange s.sp)

/-! ### Timers (60_exceptions R243) -/

/-- One decrement toward zero, never below it. -/
def countDown (t : Byte) : Byte := if t = 0x00#8 then 0x00#8 else t - 1#8

/-- The tick operation. -/
def State.tick (s : State) : State := { s with dt := countDown s.dt, st := countDown s.st }

/-! ### The cycle before execute (40_cycle) -/

/-- The cycle guard (R141): a halted or faulted core ignores a cycle request. -/
def State.ignoresCycle (s : State) : Bool := s.halted || s.fault != .none

/-- The tick of a cycle, when P_TIMER_ON_CYCLE (R143). -/
def State.cycleTick (s : State) : State := if s.params.timerOnCycle then s.tick else s

/-- The fetch guard's write to PC (R142). -/
def State.fetchGuard (s : State) : State :=
  match s.params.fetchOverrun with
  | .reset => if s.pc.toNat > 0xFFE then s.setPc 0x0200#16 else s
  | .wrap => s.setPc (BitVec.ofNat 16 (s.pc.toNat % 0x1000))

/-- a0 of R142, for a state the guard has passed. -/
def State.fetchAddr0 (s : State) : Nat := s.pc.toNat

/-- a1 of R142, for a state the guard has passed. -/
def State.fetchAddr1 (s : State) : Nat :=
  match s.params.fetchOverrun with
  | .reset => s.pc.toNat + 1
  | .wrap => (s.pc.toNat + 1) % 0x1000

/-- What a cycle does before it fetches: the tick, then the guard (R140). -/
def State.beginCycle (s : State) : State := s.cycleTick.fetchGuard

/-- MemRead(a0, 1) ++ MemRead(a1, 1), big-endian (R144; 20_memory R84). -/
def State.fetchWord (s : State) : Except Fault Word :=
  match s.mem.read s.fetchAddr0, s.mem.read s.fetchAddr1 with
  | .ok hi, .ok lo => .ok (wordOfBytes hi lo)
  | .error f, _ => .error f
  | .ok _, .error f => .error f

/-- Store a word where the next cycle fetches, and let that cycle run: HALTED and FAULT are cleared, since a core that has
either set fetches nothing (R141). A device for placing one instruction, no operation of the machine. Log entry 8. -/
def State.placeWord (s : State) (w : Word) : State :=
  let g := s.fetchGuard
  { s with
    mem := (s.mem.write g.fetchAddr0 (w.extractLsb' 8 8)).write g.fetchAddr1 (w.extractLsb' 0 8)
    halted := false
    fault := .none }

end Sys2Proof.Machine
end

