-- ==== Sys2Proof/Machine/Operands.lean ====
section
/-! DEFINITION. The operand forms (30_encoding R113, R114) and the operands latched before any write (44_alu_8 R190). -/

namespace Sys2Proof.Machine

/-- zext_16(NNN): the address field where it meets PC or I (R113). -/
def zextAddr (nnn : Addr12) : Word := nnn.setWidth 16

/-- zext_16 of a register, where it meets PC (R113, R213). -/
def zextByte (b : Byte) : Word := b.setWidth 16

/-- The flag register VF is V[0xF] (10_state R31). -/
def regF : Nibble := 0xF#4

/-- The register BNNN reads, whatever its X nibble is (R114, R213). -/
def reg0 : Nibble := 0x0#4

/-- a := V[X] and b := V[Y], each read once (R190). -/
def State.latch (s : State) (x y : Nibble) : Byte × Byte := (s.getV x, s.getV y)

/-- The addend of 7XNN (43_imm_6_7 R186): 1 under P_ADD7_PLUS_ONE, else NN. -/
def State.addend7 (s : State) (nn : Byte) : Byte := if s.params.add7PlusOne then 0x01#8 else nn

/-- The target of BNNN, a 16-bit sum that is not reduced to 12 bits (R213). -/
def State.jumpV0Target (s : State) (nnn : Addr12) : Word := zextAddr nnn + zextByte (s.getV reg0)

end Sys2Proof.Machine
end

