-- ==== Sys2Proof/Machine/Flags.lean ====
section
/-! DEFINITION. The values VF receives (44_alu_8 R196 to R200) and the order of the two writes of an ALU instruction (R191). -/

namespace Sys2Proof.Machine

/-- A flag as the byte 0 or 1. -/
def flagByte (c : Bool) : Byte := if c then 0x01#8 else 0x00#8

/-- The carry of a + b: 1 when the exact sum is above 255 (R196). -/
def carryFlag (a b : Byte) : Byte := flagByte (decide (a.toNat + b.toNat > 255))

/-- NOT borrow of a - b: 1 when a is at least b, equality included (R197, R199). -/
def notBorrowFlag (a b : Byte) : Byte := flagByte (decide (a.toNat ≥ b.toNat))

/-- The bit a right shift by one moves out (R198). -/
def shrOutFlag (b : Byte) : Byte := b &&& 0x01#8

/-- The bit a left shift by one moves out, as 0 or 1 (R200). -/
def shlOutFlag (b : Byte) : Byte := flagByte (b &&& 0x80#8 != 0x00#8)

/-- The order of 8XY4, 8XY5 and 8XY7: V[X], then VF (R191). -/
def State.writeResultThenFlag (s : State) (x : Nibble) (result flag : Byte) : State := (s.setV x result).setV regF flag

/-- The order of 8XY6 and 8XYE: VF, then V[X] (R191). -/
def State.writeFlagThenResult (s : State) (x : Nibble) (result flag : Byte) : State := (s.setV regF flag).setV x result

end Sys2Proof.Machine
end

