-- ==== Sys2Proof/Machine/Alu.lean ====
section
/-! DEFINITION. The 0x8 family (44_alu_8). A sum or difference of bytes is taken modulo 256 (R202). -/

namespace Sys2Proof.Machine

/-- LD VX, VY, 0x8XY0 (R192). -/
def execLdReg (x y : Nibble) (s : State) : Result := .next (s.setV x (s.getV y)).advance

/-- OR VX, VY, 0x8XY1 (R193). -/
def execOr (x y : Nibble) (s : State) : Result :=
  let (a, b) := s.latch x y
  .next (s.setV x (a ||| b)).advance

/-- AND VX, VY, 0x8XY2 (R194). -/
def execAnd (x y : Nibble) (s : State) : Result :=
  let (a, b) := s.latch x y
  .next (s.setV x (a &&& b)).advance

/-- XOR VX, VY, 0x8XY3 (R195). -/
def execXor (x y : Nibble) (s : State) : Result :=
  let (a, b) := s.latch x y
  .next (s.setV x (a ^^^ b)).advance

/-- ADD VX, VY, 0x8XY4 (R196). -/
def execAddReg (x y : Nibble) (s : State) : Result :=
  let (a, b) := s.latch x y
  .next (s.writeResultThenFlag x (a + b) (carryFlag a b)).advance

/-- SUB VX, VY, 0x8XY5 (R197). -/
def execSub (x y : Nibble) (s : State) : Result :=
  let (a, b) := s.latch x y
  .next (s.writeResultThenFlag x (a - b) (notBorrowFlag a b)).advance

/-- SHR VX, VY, 0x8XY6 (R198): V[Y] is shifted, and V[X]'s old value is not read. -/
def execShr (x y : Nibble) (s : State) : Result :=
  let b := s.getV y
  .next (s.writeFlagThenResult x (b >>> 1) (shrOutFlag b)).advance

/-- SUBN VX, VY, 0x8XY7 (R199). -/
def execSubn (x y : Nibble) (s : State) : Result :=
  let (a, b) := s.latch x y
  .next (s.writeResultThenFlag x (b - a) (notBorrowFlag b a)).advance

/-- SHL VX, VY, 0x8XYE (R200): V[Y] is shifted, and V[X]'s old value is not read. -/
def execShl (x y : Nibble) (s : State) : Result :=
  let b := s.getV y
  .next (s.writeFlagThenResult x (b <<< 1) (shlOutFlag b)).advance

end Sys2Proof.Machine
end

