-- ==== Sys2Proof/Machine/Flow.lean ====
section
/-! DEFINITION. Jumps, call and skips: 1NNN to 5XY0 (42_flow_1_to_5), 9XY0 and BNNN (45_9_to_C). -/

namespace Sys2Proof.Machine

/-- JP NNN, 0x1NNN (R170): a target below P_JUMP_MIN faults. -/
def execJp (nnn : Addr12) (s : State) : Result :=
  if nnn < s.params.jumpMin then takeFault .jumpTarget s else .next (s.setPc (zextAddr nnn))

/-- CALL NNN, 0x2NNN (R171): the address of the next instruction is pushed; the target is not checked. -/
def execCall (nnn : Addr12) (s : State) : Result :=
  if s.sp = 12#4 then takeFault .stackOverflow s
  else
    match s.push s.nextPc with
    | some s' => .next (s'.setPc (zextAddr nnn))
    | none => stopBeyondStack s

/-- SE VX, NN, 0x3XNN (R173). -/
def execSeImm (x : Nibble) (nn : Byte) (s : State) : Result := .next (s.skipIf (s.getV x == nn))

/-- SNE VX, NN, 0x4XNN (R174). -/
def execSneImm (x : Nibble) (nn : Byte) (s : State) : Result := .next (s.skipIf (s.getV x != nn))

/-- SE VX, VY, 0x5XY0 (R175). -/
def execSeReg (x y : Nibble) (s : State) : Result := .next (s.skipIf (s.getV x == s.getV y))

/-- SNE VX, VY, 0x9XY0 (R210). -/
def execSneReg (x y : Nibble) (s : State) : Result := .next (s.skipIf (s.getV x != s.getV y))

/-- JP V0, NNN, 0xBNNN (R213): the target is not checked. -/
def execJpV0 (nnn : Addr12) (s : State) : Result := .next (s.setPc (s.jumpV0Target nnn))

end Sys2Proof.Machine
end

