-- ==== Sys2Proof/Machine/Imm.lean ====
section
/-! DEFINITION. Register immediates: 6XNN and 7XNN (43_imm_6_7). -/

namespace Sys2Proof.Machine

/-- LD VX, NN, 0x6XNN (R185). -/
def execLdImm (x : Nibble) (nn : Byte) (s : State) : Result := .next (s.setV x nn).advance

/-- ADD VX, NN, 0x7XNN (R186): the sum modulo 256, and no flag. -/
def execAddImm (x : Nibble) (nn : Byte) (s : State) : Result :=
  .next (s.setV x (s.getV x + s.addend7 nn)).advance

end Sys2Proof.Machine
end

