-- ==== Sys2Proof/Machine/Misc.lean ====
section
/-! DEFINITION. ANNN, CXNN and the unrecognized words (45_9_to_C). -/

namespace Sys2Proof.Machine

/-- LD I, NNN, 0xANNN (R212). -/
def execLdI (nnn : Addr12) (s : State) : Result := .next (s.setI (zextAddr nnn)).advance

/-- RND VX, NN, 0xCXNN (R214): one byte is sampled from RND and masked. -/
def execRnd (x : Nibble) (nn : Byte) (s : State) : Result :=
  let (r, s') := s.drawRnd
  .next (s'.setV x (r &&& nn)).advance

/-- An unrecognized word (R215): the event (word, pc), then pc + 2. -/
def execUnrecognized (w : Word) (s : State) : Result := .next (s.emitUnrecognized w).advance

end Sys2Proof.Machine
end

