-- ==== Sys2Proof/Machine/System0.lean ====
section
/-! DEFINITION. The 0x0 family: HALT, CLS, RET (41_system_0x0). -/

namespace Sys2Proof.Machine

/-- HALT, 0x0000 (R160). -/
def execHalt (s : State) : Result := .next s.setHalted.advance

/-- CLS, 0x00E0 (R161). -/
def execCls (s : State) : Result := .next s.clearFb.advance

/-- RET, 0x00EE (R162): the popped address is used as it is stored. -/
def execRet (s : State) : Result :=
  if s.sp = 0#4 then takeFault .stackUnderflow s
  else
    match s.pop with
    | some (t, s') => .next (s'.setPc t)
    | none => stopBeyondStack s

end Sys2Proof.Machine
end

