-- ==== Sys2Proof/Machine/Step.lean ====
section
/-! DEFINITION. The cycle operation (40_cycle R140). -/

namespace Sys2Proof.Machine

/-- One cycle request (R140): a halted or faulted core changes nothing (R141; log entry 4); else the tick and the fetch
guard, the fetch, LAST_WORD <- word (R148), and execute. -/
def step (s : State) : Host.Outcome State Fault Refusal :=
  if s.ignoresCycle then .next s
  else
    match s.beginCycle.fetchWord with
    | .ok w => exec (decode w) (s.beginCycle.setLastWord w)
    | .error f => .fault f

/-- `s` with a table row's word stored where `step` fetches its next instruction, and nothing that would keep it from
fetching. Log entry 8. -/
def State.withFetchWord (s : State) (nbits w : Nat) : State := s.placeWord (tableWord nbits w)

end Sys2Proof.Machine
end

