-- ==== Sys2Proof/Machine/HostPort.lean ====
section
/-! DEFINITION. The host's side of the core: reset, load, cycle and tick requests (10_state R48, 60_exceptions R250,
70_reset_and_hazards R270 to R276) and the read-only outputs (R48, R49). -/

namespace Sys2Proof.Machine

/-! ### Requests -/

/-- Reset (R270): every piece of state to its value of R45. The parameters are not state, the event history is the host's
record, and a later byte of RND stays a fresh one, so the model's three own fields keep their values. Log entry 7. -/
def State.resetCore (s : State) : State :=
  { State.reset with params := s.params, events := s.events, rndDraws := s.rndDraws }

/-- The load (R275): MEM cleared, the image copied verbatim at 0x200, PC to 0x200 and LOAD_STATUS to OK; an image of more
than 3584 bytes is refused with LOAD_ERROR and nothing else changes (R276). -/
def State.load (s : State) (image : List Byte) : State :=
  if image.length > Config.maxImage then s.setLoadStatus .loadError
  else ((s.setMem (Memory.writeBytes [] Config.progBase image)).setPc 0x0200#16).setLoadStatus .ok

/-- LOAD or CYC: of the two, at most one in a step (R48). -/
inductive Request where
  | load (image : List Byte)
  | cycle
  deriving DecidableEq, Repr

/-- What the host presents in one step (R48). -/
structure HostInput where
  rst : Bool
  tick : Bool
  request : Option Request
  deriving DecidableEq, Repr

/-- One step of the host protocol: RST takes priority over everything else (R48, R270), and a TICK is applied first
(R244), whatever HALTED and FAULT are (R245). Log entry 6. -/
def hostStep (input : HostInput) (s : State) : Result :=
  if input.rst then .next s.resetCore
  else
    let s1 := if input.tick then s.tick else s
    match input.request with
    | none => .next s1
    | some (.load image) => .next (s1.load image)
    | some .cycle => step s1

/-- A run of the host protocol: the host's operations take effect in the order it issues them, one at a time
(20_memory R89). -/
def hostRun : List HostInput → State → Result
  | [], s => .next s
  | input :: rest, s =>
    match hostStep input s with
    | .next t => hostRun rest t
    | .fault f => .fault f
    | .refused r => .refused r

/-! ### Outputs -/

/-- The number of a fault code (60_exceptions R232). -/
def FaultCode.bits : FaultCode → BitVec 2
  | .none => 0#2
  | .stackOverflow => 1#2
  | .stackUnderflow => 2#2
  | .jumpTarget => 3#2

/-- The debug view DBG (R49). -/
structure DebugView where
  v : Vector Byte 16
  iReg : Word
  pc : Word
  sp : BitVec 4
  stack : Vector Word 12
  dt : Byte
  st : Byte
  halted : Bool
  fault : BitVec 2
  lastWord : Word
  deriving DecidableEq, Repr

/-- What DBG presents of a state (R49). -/
def State.debugView (s : State) : DebugView :=
  { v := s.v, iReg := s.iReg, pc := s.pc, sp := s.sp, stack := s.stack, dt := s.dt, st := s.st,
    halted := s.halted, fault := s.fault.bits, lastWord := s.lastWord }

/-- The index of the cell at column x and row y (10_state R39; D17). -/
def fbIndex (x : BitVec 6) (y : BitVec 5) : BitVec 11 := BitVec.ofNat 11 (y.toNat * Config.fbWidth + x.toNat)

/-- FB_DATA = FB[FB_ADDR] (R48, 60_exceptions R247). -/
def State.fbData (s : State) (fbAddr : BitVec 11) : Byte := s.fb.cell fbAddr.toNat

/-- A pixel is on when its cell is nonzero (R39). -/
def State.pixelOn (s : State) (x : BitVec 6) (y : BitVec 5) : Bool := s.fbData (fbIndex x y) != 0x00#8

/-- The outputs of R48 but for the two that take an argument of their own, FB_DATA and the event of a step. -/
structure Outputs where
  word : Word
  finished : Bool
  fault : BitVec 2
  stOut : Byte
  loadStatus : LoadStatus
  dbg : DebugView
  deriving DecidableEq, Repr

/-- The outputs a state shows (R48). -/
def State.outputs (s : State) : Outputs :=
  { word := s.lastWord, finished := s.halted, fault := s.fault.bits, stOut := s.st, loadStatus := s.loadStatus,
    dbg := s.debugView }

/-- UNREC_VALID, UNREC_WORD and UNREC_PC of the step from `s` to `t` (R216): the event that step emitted, if it did. -/
def unrecOutput (s t : State) : Option UnrecEvent := if t.events = s.events then none else t.events.head?

end Sys2Proof.Machine
end

