-- ==== Sys2Proof/Safety.lean ====
section
/-! DEFINITION. The terms statements use: what an operation leaves unchanged, which registers an instruction reads and writes
(10_state R32), the invariant of a run, the shape of a well-formed word, and how a run ends (60_exceptions R254). -/

namespace Sys2Proof.Safety

open Sys2Proof.Machine

/-! ### Frames -/

/-- The pieces of `State`, one for each field. -/
inductive Part where
  | mem | v | iReg | pc | sp | stack | dt | st | fb | halted | fault | lastWord | loadStatus
  | params | events | rndDraws
  deriving DecidableEq, Repr

/-- A piece is the same in two states. Registers, stack, memory and framebuffer are compared through their reads, memory one
byte at a time. -/
def Part.Same : Part → State → State → Prop
  | .mem, s, t => ∀ a, t.mem.byteAt a = s.mem.byteAt a
  | .v, s, t => ∀ r, t.getV r = s.getV r
  | .iReg, s, t => t.iReg = s.iReg
  | .pc, s, t => t.pc = s.pc
  | .sp, s, t => t.sp = s.sp
  | .stack, s, t => ∀ k, (h : k < 12) → t.stack[k] = s.stack[k]
  | .dt, s, t => t.dt = s.dt
  | .st, s, t => t.st = s.st
  | .fb, s, t => ∀ k, t.fb.cell k = s.fb.cell k
  | .halted, s, t => t.halted = s.halted
  | .fault, s, t => t.fault = s.fault
  | .lastWord, s, t => t.lastWord = s.lastWord
  | .loadStatus, s, t => t.loadStatus = s.loadStatus
  | .params, s, t => t.params = s.params
  | .events, s, t => t.events = s.events
  | .rndDraws, s, t => t.rndDraws = s.rndDraws

/-- Every piece is the same in `t` as in `s`, but for the pieces listed. -/
def UnchangedBut (changed : List Part) (s t : State) : Prop := ∀ p, p ∉ changed → p.Same s t

/-- The pieces an instruction may write, PC among them: by R32 and R47, MEM, DT, ST, LAST_WORD and LOAD_STATUS are in no row.
FAULT stands in the rows of the three instructions that can fault (60_exceptions R232). -/
def partsWritten : Instr → List Part
  | .halt => [.pc, .halted]
  | .cls => [.pc, .fb]
  | .ret => [.pc, .sp, .fault]
  | .jp _ => [.pc, .fault]
  | .call _ => [.pc, .sp, .stack, .fault]
  | .seImm _ _ | .sneImm _ _ | .seReg _ _ | .sneReg _ _ => [.pc]
  | .ldImm _ _ | .addImm _ _ | .ldReg _ _ | .orReg _ _ | .andReg _ _ | .xorReg _ _ => [.pc, .v]
  | .addReg _ _ | .sub _ _ | .shr _ _ | .subn _ _ | .shl _ _ => [.pc, .v]
  | .ldI _ => [.pc, .iReg]
  | .jpV0 _ => [.pc]
  | .rnd _ _ => [.pc, .v, .rndDraws]
  | .unrecognized _ => [.pc, .events]

/-- The "reads" column of R32. -/
def regsRead : Instr → List Nibble
  | .seImm x _ | .sneImm x _ | .addImm x _ => [x]
  | .seReg x y | .sneReg x y => [x, y]
  | .ldReg _ y | .shr _ y | .shl _ y => [y]
  | .orReg x y | .andReg x y | .xorReg x y | .addReg x y | .sub x y | .subn x y => [x, y]
  | .jpV0 _ => [0x0#4]
  | .halt | .cls | .ret | .jp _ | .call _ | .ldI _ | .unrecognized _ => []
  | .ldImm _ _ | .rnd _ _ => []

/-- The "writes" column of R32. -/
def regsWritten : Instr → List Nibble
  | .ldImm x _ | .addImm x _ | .rnd x _ => [x]
  | .ldReg x _ | .orReg x _ | .andReg x _ | .xorReg x _ => [x]
  | .addReg x _ | .sub x _ | .subn x _ => [x, 0xF#4]
  | .shr x _ | .shl x _ => [0xF#4, x]
  | .halt | .cls | .ret | .jp _ | .call _ | .ldI _ | .jpV0 _ | .unrecognized _ => []
  | .seImm _ _ | .sneImm _ _ | .seReg _ _ | .sneReg _ _ => []

/-- The classes of the next PC (40_cycle R147). -/
inductive PcClass where
  | straight
  | skip (c : Bool)
  | absolute (target : Word)
  | return

/-- The class of an instruction, with the condition a skip tests and the target of an absolute jump, in a state (R147). -/
def pcClass (s : State) : Instr → PcClass
  | .halt | .cls | .ldI _ | .unrecognized _ => .straight
  | .ldImm _ _ | .addImm _ _ | .rnd _ _ => .straight
  | .ldReg _ _ | .orReg _ _ | .andReg _ _ | .xorReg _ _ => .straight
  | .addReg _ _ | .sub _ _ | .shr _ _ | .subn _ _ | .shl _ _ => .straight
  | .seImm x nn => .skip (decide (s.getV x = nn))
  | .sneImm x nn => .skip (decide (s.getV x ≠ nn))
  | .seReg x y => .skip (decide (s.getV x = s.getV y))
  | .sneReg x y => .skip (decide (s.getV x ≠ s.getV y))
  | .jp nnn | .call nnn => .absolute (0x0#4 ++ nnn)
  | .jpV0 nnn => .absolute ((0x0#4 ++ nnn) + (0x00#8 ++ s.getV 0x0#4))
  | .ret => .return

/-- The condition under which an instruction faults and the code it records (60_exceptions R232). -/
def faultOf (s : State) : Instr → Option FaultCode
  | .call _ => if s.sp.toNat = 12 then some .stackOverflow else none
  | .ret => if s.sp.toNat = 0 then some .stackUnderflow else none
  | .jp nnn => if nnn.toNat < s.params.jumpMin.toNat then some .jumpTarget else none
  | _ => none

/-! ### Cycles -/

/-- The core takes a cycle: it is neither halted nor faulted (40_cycle R141). -/
def Running (s : State) : Prop := s.halted = false ∧ s.fault = .none

/-- The word a cycle fetches: the byte at a0, then the byte at a1 (40_cycle R144). -/
def fetchedWord (s : State) : Word :=
  s.beginCycle.mem.byteAt s.beginCycle.fetchAddr0 ++ s.beginCycle.mem.byteAt s.beginCycle.fetchAddr1

/-! ### The opcode map -/

/-- The mask and the match of an instruction's row (30_encoding R116); an unrecognized word has no row. -/
def opcodeRow : Instr → Option (Word × Word)
  | .halt => some (0xFFFF#16, 0x0000#16)
  | .cls => some (0xFFFF#16, 0x00E0#16)
  | .ret => some (0xFFFF#16, 0x00EE#16)
  | .jp _ => some (0xF000#16, 0x1000#16)
  | .call _ => some (0xF000#16, 0x2000#16)
  | .seImm _ _ => some (0xF000#16, 0x3000#16)
  | .sneImm _ _ => some (0xF000#16, 0x4000#16)
  | .seReg _ _ => some (0xF00F#16, 0x5000#16)
  | .ldImm _ _ => some (0xF000#16, 0x6000#16)
  | .addImm _ _ => some (0xF000#16, 0x7000#16)
  | .ldReg _ _ => some (0xF00F#16, 0x8000#16)
  | .orReg _ _ => some (0xF00F#16, 0x8001#16)
  | .andReg _ _ => some (0xF00F#16, 0x8002#16)
  | .xorReg _ _ => some (0xF00F#16, 0x8003#16)
  | .addReg _ _ => some (0xF00F#16, 0x8004#16)
  | .sub _ _ => some (0xF00F#16, 0x8005#16)
  | .shr _ _ => some (0xF00F#16, 0x8006#16)
  | .subn _ _ => some (0xF00F#16, 0x8007#16)
  | .shl _ _ => some (0xF00F#16, 0x800E#16)
  | .sneReg _ _ => some (0xF00F#16, 0x9000#16)
  | .ldI _ => some (0xF000#16, 0xA000#16)
  | .jpV0 _ => some (0xF000#16, 0xB000#16)
  | .rnd _ _ => some (0xF000#16, 0xC000#16)
  | .unrecognized _ => none

/-- The masks and matches of the 23 rows of R116, in its order. -/
def opcodeRows : List (Word × Word) :=
  [(0xFFFF#16, 0x0000#16), (0xFFFF#16, 0x00E0#16), (0xFFFF#16, 0x00EE#16), (0xF000#16, 0x1000#16), (0xF000#16, 0x2000#16),
   (0xF000#16, 0x3000#16), (0xF000#16, 0x4000#16), (0xF00F#16, 0x5000#16), (0xF000#16, 0x6000#16), (0xF000#16, 0x7000#16),
   (0xF00F#16, 0x8000#16), (0xF00F#16, 0x8001#16), (0xF00F#16, 0x8002#16), (0xF00F#16, 0x8003#16), (0xF00F#16, 0x8004#16),
   (0xF00F#16, 0x8005#16), (0xF00F#16, 0x8006#16), (0xF00F#16, 0x8007#16), (0xF00F#16, 0x800E#16), (0xF00F#16, 0x9000#16),
   (0xF000#16, 0xA000#16), (0xF000#16, 0xB000#16), (0xF000#16, 0xC000#16)]

/-! ### Invariants -/

/-- What holds of every state a run reaches: SP is in 0..12 (R36), I in 0x000..0xFFF (R33), PC in 0x0000..0x10FE and each
stack entry in 0x0000..0x1001 (R47), no pixel is set (R39), MEM below 0x200 is zero (20_memory R83), both byte stores are in
canonical form, and a core is not halted and faulted at once. -/
structure Inv (s : State) : Prop where
  memWf : s.mem.wf = true
  memLow : ∀ a, a < 0x200 → s.mem.byteAt a = 0x00#8
  fbWf : s.fb.wf = true
  fbClear : ∀ k, s.fb.cell k = 0x00#8
  spRange : s.sp.toNat ≤ 12
  iRange : s.iReg.toNat ≤ 0xFFF
  pcRange : s.pc.toNat ≤ 0x10FE
  stackRange : ∀ k, (h : k < 12) → s.stack[k].toNat ≤ 0x1001
  oneStop : s.halted = true → s.fault = .none

/-- Both timers are zero, as they stay from reset (60_exceptions R246). -/
def TimersZero (s : State) : Prop := s.dt = 0x00#8 ∧ s.st = 0x00#8

/-- The state with both timers put to zero: what is left when the timers are not looked at. -/
def forgetTimers (s : State) : State := { s with dt := 0x00#8, st := 0x00#8 }

/-- Apply a function to the next state of an outcome. -/
def mapNext (f : State → State) : Result → Result
  | .next s => .next (f s)
  | .fault r => .fault r
  | .refused r => .refused r

/-! ### The end of a run -/

/-- How a run stands at a state (60_exceptions R254). -/
inductive RunEnd where
  | running
  | ended
  | failed
  deriving DecidableEq, Repr

/-- Ended when HALTED is 1, failed when FAULT is not NONE; a faulted state is never final (R231). -/
def runEnd (s : State) : RunEnd :=
  if s.fault ≠ .none then .failed else if s.halted then .ended else .running

end Sys2Proof.Safety
end

