-- ==== Sys2Proof/Certificates/Slice0/Obligations.lean ====
section
/-! DEFINITION. The statements for the provers, from the numbered rules of spec/. `UnchangedBut parts s t` is the frame: every
piece of state outside `parts` is the same in `t` as in `s`, memory byte by byte. -/

open Sys2Proof Sys2Proof.Machine Sys2Proof.Safety

/-- Decode and encode agree on every well-formed instruction, all 24 rows (30_encoding R112, R115, R116). -/
def Obligations.DecodeOfEncodeIsTheInstruction : Prop :=
  ∀ i : Instr, WellFormed i → decode (encode i) = i

/-- Each word has one meaning and keeps every bit (30_encoding R112, R116). -/
def Obligations.EncodeOfDecodeIsTheWord : Prop :=
  ∀ w : Word, encode (decode w) = w

/-- 30_encoding R112: decode is pure and total, and what it answers is well formed. -/
def Obligations.EveryWordDecodesWellFormed : Prop :=
  ∀ w : Word, WellFormed (decode w) ∧
    ((∃ r, opcodeRow (decode w) = some r) ∨ decode w = .unrecognized w)

/-- 30_encoding R116 in its match and mask form, against the nibble dispatch of R115. -/
def Obligations.DecodeFollowsTheOpcodeMap : Prop :=
  (∀ w : Word, ∀ r ∈ opcodeRows, (w &&& r.1 = r.2 ↔ opcodeRow (decode w) = some r)) ∧
    ∀ w : Word, ((∀ r ∈ opcodeRows, w &&& r.1 ≠ r.2) ↔ decode w = .unrecognized w)

/-- The table of 30_encoding R118, with the 0x8 row of R117; the counts of R118 are not stated. -/
def Obligations.UnrecognizedWordsAreTheListedOnes : Prop :=
  ∀ w : Word, decode w = .unrecognized w ↔
    (w.toNat / 0x1000 = 0x0 ∧ w ≠ 0x0000#16 ∧ w ≠ 0x00E0#16 ∧ w ≠ 0x00EE#16) ∨
    (w.toNat / 0x1000 = 0x5 ∧ w.toNat % 0x10 ≠ 0) ∨
    (w.toNat / 0x1000 = 0x8 ∧ w.toNat % 0x10 ∈ [0x8, 0x9, 0xA, 0xB, 0xC, 0xD, 0xF]) ∨
    (w.toNat / 0x1000 = 0x9 ∧ w.toNat % 0x10 ≠ 0) ∨
    w.toNat / 0x1000 = 0xD ∨ w.toNat / 0x1000 = 0xE ∨ w.toNat / 0x1000 = 0xF

/-- Words of each family written out bit by bit from the opcode map (30_encoding R116, 95_test_vectors L2). -/
def Obligations.WordsWrittenOutDecode : Prop :=
  decode 0b0000000000000000#16 = .halt ∧
    decode 0b0000000011100000#16 = .cls ∧
    decode 0b0001001000000100#16 = .jp 0x204#12 ∧
    decode 0b0011001100101010#16 = .seImm 0x3#4 0x2A#8 ∧
    decode 0b0110000100000101#16 = .ldImm 0x1#4 0x05#8 ∧
    decode 0b1000001000110101#16 = .sub 0x2#4 0x3#4 ∧
    decode 0b1000010000111110#16 = .shl 0x4#4 0x3#4 ∧
    decode 0b1010000100100011#16 = .ldI 0x123#12 ∧
    decode 0b1110000010011110#16 = .unrecognized 0xE09E#16

/-- 41_system_0x0 R160. -/
def Obligations.HaltStopsTheCore : Prop :=
  decode 0x0000#16 = .halt ∧
    ∀ s : State, ∃ t, exec .halt s = .next t ∧ t.halted = true ∧ t.pc = s.pc + 2#16 ∧
      UnchangedBut [.halted, .pc] s t ∧ step t = .next t

/-- 41_system_0x0 R161. -/
def Obligations.ClearScreenZeroesEveryCell : Prop :=
  decode 0x00E0#16 = .cls ∧
    ∀ s : State, ∃ t, exec .cls s = .next t ∧ (∀ k, k < 2048 → t.fb.cell k = 0x00#8) ∧ t.pc = s.pc + 2#16 ∧
      UnchangedBut [.fb, .pc] s t ∧
      ∃ u, exec .cls t = .next u ∧ u.pc = t.pc + 2#16 ∧ UnchangedBut [.pc] t u

/-- 41_system_0x0 R162 and the underflow of 60_exceptions R234. -/
def Obligations.ReturnPopsTheStoredAddress : Prop :=
  decode 0x00EE#16 = .ret ∧
    (∀ s : State, 1 ≤ s.sp.toNat → s.sp.toNat ≤ 12 →
      ∃ t, exec .ret s = .next t ∧ t.sp.toNat = s.sp.toNat - 1 ∧ s.stack[s.sp.toNat - 1]? = some t.pc ∧
        UnchangedBut [.sp, .pc] s t) ∧
    ∀ s : State, s.sp.toNat = 0 →
      ∃ t, exec .ret s = .next t ∧ t.fault = .stackUnderflow ∧ UnchangedBut [.fault] s t

/-- 42_flow_1_to_5 R170 and 60_exceptions R235. -/
def Obligations.JumpGoesToTheTargetOrFaults : Prop :=
  (∀ nnn : Addr12, decode (0x1#4 ++ nnn) = .jp nnn) ∧
    (∀ (nnn : Addr12) (s : State), s.params.jumpMin.toNat ≤ nnn.toNat →
      ∃ t, exec (.jp nnn) s = .next t ∧ t.pc.toNat = nnn.toNat ∧ UnchangedBut [.pc] s t) ∧
    (∀ (nnn : Addr12) (s : State), nnn.toNat < s.params.jumpMin.toNat →
      ∃ t, exec (.jp nnn) s = .next t ∧ t.fault = .jumpTarget ∧ UnchangedBut [.fault] s t) ∧
    State.reset.params.jumpMin.toNat = 0x201

/-- 42_flow_1_to_5 R171 and 60_exceptions R233. -/
def Obligations.CallPushesTheNextAddressOrFaults : Prop :=
  (∀ nnn : Addr12, decode (0x2#4 ++ nnn) = .call nnn) ∧
    (∀ (nnn : Addr12) (s : State), s.sp.toNat < 12 →
      ∃ t, exec (.call nnn) s = .next t ∧ t.stack[s.sp.toNat]? = some (s.pc + 2#16) ∧
        (∀ k, k ≠ s.sp.toNat → t.stack[k]? = s.stack[k]?) ∧ t.sp.toNat = s.sp.toNat + 1 ∧ t.pc.toNat = nnn.toNat ∧
        UnchangedBut [.stack, .sp, .pc] s t) ∧
    ∀ (nnn : Addr12) (s : State), s.sp.toNat = 12 →
      ∃ t, exec (.call nnn) s = .next t ∧ t.fault = .stackOverflow ∧ UnchangedBut [.fault] s t

/-- The source's property S3, from 42_flow_1_to_5 R171 and 41_system_0x0 R162. -/
def Obligations.CallThenReturnResumesAfterTheCall : Prop :=
  ∀ (nnn : Addr12) (s : State), s.sp.toNat < 12 →
    ∃ t u, exec (.call nnn) s = .next t ∧ exec .ret t = .next u ∧ u.pc = s.pc + 2#16 ∧ u.sp = s.sp ∧
      UnchangedBut [.stack, .pc] s u ∧ ∀ k, k ≠ s.sp.toNat → u.stack[k]? = s.stack[k]?

/-- The model's choice of log entry 5, for SP values that 10_state R36 says are never reached. -/
def Obligations.CallAndReturnStopBeyondTheStack : Prop :=
  (∀ (nnn : Addr12) (s : State), 12 < s.sp.toNat → exec (.call nnn) s = .fault (.stackIndexOutOfRange s.sp)) ∧
    ∀ s : State, 12 < s.sp.toNat → exec .ret s = .fault (.stackIndexOutOfRange s.sp)

/-- SE VX, NN skips exactly when V[X] equals NN (R173). -/
def Obligations.SkipIfEqualImmediate : Prop :=
  (∀ (x : Nibble) (nn : Byte), decode (0x3#4 ++ x ++ nn) = .seImm x nn) ∧
    ∀ (x : Nibble) (nn : Byte) (s : State), ∃ t, exec (.seImm x nn) s = .next t ∧
      t.pc = (if s.getV x = nn then s.pc + 4#16 else s.pc + 2#16) ∧ UnchangedBut [.pc] s t

/-- SNE VX, NN skips exactly when V[X] differs from NN (R174). -/
def Obligations.SkipIfNotEqualImmediate : Prop :=
  (∀ (x : Nibble) (nn : Byte), decode (0x4#4 ++ x ++ nn) = .sneImm x nn) ∧
    ∀ (x : Nibble) (nn : Byte) (s : State), ∃ t, exec (.sneImm x nn) s = .next t ∧
      t.pc = (if s.getV x ≠ nn then s.pc + 4#16 else s.pc + 2#16) ∧ UnchangedBut [.pc] s t

/-- SE VX, VY skips exactly when V[X] equals V[Y] (R175). -/
def Obligations.SkipIfEqualRegister : Prop :=
  (∀ (x y : Nibble), decode (0x5#4 ++ x ++ y ++ 0x0#4) = .seReg x y) ∧
    ∀ (x y : Nibble) (s : State), ∃ t, exec (.seReg x y) s = .next t ∧
      t.pc = (if s.getV x = s.getV y then s.pc + 4#16 else s.pc + 2#16) ∧ UnchangedBut [.pc] s t

/-- SNE VX, VY skips exactly when V[X] differs from V[Y] (R210). -/
def Obligations.SkipIfNotEqualRegister : Prop :=
  (∀ (x y : Nibble), decode (0x9#4 ++ x ++ y ++ 0x0#4) = .sneReg x y) ∧
    ∀ (x y : Nibble) (s : State), ∃ t, exec (.sneReg x y) s = .next t ∧
      t.pc = (if s.getV x ≠ s.getV y then s.pc + 4#16 else s.pc + 2#16) ∧ UnchangedBut [.pc] s t

/-- LD VX, NN writes NN to V[X] (R185). -/
def Obligations.LoadImmediateWritesNN : Prop :=
  (∀ (x : Nibble) (nn : Byte), decode (0x6#4 ++ x ++ nn) = .ldImm x nn) ∧
    (∀ (x : Nibble) (nn : Byte) (s : State), ∃ t, exec (.ldImm x nn) s = .next t ∧ t.getV x = nn ∧
      t.pc = s.pc + 2#16 ∧ (∀ r, r ≠ x → t.getV r = s.getV r) ∧ UnchangedBut [.v, .pc] s t)

/-- ADD VX, NN adds NN modulo 256 and writes no flag (R186). -/
def Obligations.AddImmediateWrapsWithoutFlag : Prop :=
  (∀ (x : Nibble) (nn : Byte), decode (0x7#4 ++ x ++ nn) = .addImm x nn) ∧
    (∀ (x : Nibble) (nn : Byte) (s : State), ∃ t, exec (.addImm x nn) s = .next t ∧ 
      (t.getV x).toNat = ((s.getV x).toNat + (if s.params.add7PlusOne then 1 else nn.toNat)) % 256 ∧
      t.pc = s.pc + 2#16 ∧ (∀ r, r ≠ x → t.getV r = s.getV r) ∧ UnchangedBut [.v, .pc] s t) ∧
    State.reset.params.add7PlusOne = false

/-- LD VX, VY copies V[Y] to V[X] (R192). -/
def Obligations.LoadRegisterCopies : Prop :=
  (∀ (x y : Nibble), decode (0x8#4 ++ x ++ y ++ 0x0#4) = .ldReg x y) ∧
    (∀ (x y : Nibble) (s : State), ∃ t, exec (.ldReg x y) s = .next t ∧ t.getV x = s.getV y ∧
      t.pc = s.pc + 2#16 ∧ (∀ r, r ≠ x → t.getV r = s.getV r) ∧ UnchangedBut [.v, .pc] s t)

/-- OR VX, VY is bitwise OR and leaves VF (R193). -/
def Obligations.OrWritesTheBitwiseOr : Prop :=
  (∀ (x y : Nibble), decode (0x8#4 ++ x ++ y ++ 0x1#4) = .orReg x y) ∧
    (∀ (x y : Nibble) (s : State), ∃ t, exec (.orReg x y) s = .next t ∧ 
      (∀ k, (t.getV x).getLsbD k = ((s.getV x).getLsbD k || (s.getV y).getLsbD k)) ∧
      t.pc = s.pc + 2#16 ∧ (∀ r, r ≠ x → t.getV r = s.getV r) ∧ UnchangedBut [.v, .pc] s t)

/-- AND VX, VY is bitwise AND and leaves VF (R194). -/
def Obligations.AndWritesTheBitwiseAnd : Prop :=
  (∀ (x y : Nibble), decode (0x8#4 ++ x ++ y ++ 0x2#4) = .andReg x y) ∧
    (∀ (x y : Nibble) (s : State), ∃ t, exec (.andReg x y) s = .next t ∧ 
      (∀ k, (t.getV x).getLsbD k = ((s.getV x).getLsbD k && (s.getV y).getLsbD k)) ∧
      t.pc = s.pc + 2#16 ∧ (∀ r, r ≠ x → t.getV r = s.getV r) ∧ UnchangedBut [.v, .pc] s t)

/-- XOR VX, VY is bitwise exclusive OR and leaves VF (R195). -/
def Obligations.XorWritesTheExclusiveOr : Prop :=
  (∀ (x y : Nibble), decode (0x8#4 ++ x ++ y ++ 0x3#4) = .xorReg x y) ∧
    (∀ (x y : Nibble) (s : State), ∃ t, exec (.xorReg x y) s = .next t ∧ 
      (∀ k, (t.getV x).getLsbD k = ((s.getV x).getLsbD k ^^ (s.getV y).getLsbD k)) ∧
      t.pc = s.pc + 2#16 ∧ (∀ r, r ≠ x → t.getV r = s.getV r) ∧ UnchangedBut [.v, .pc] s t)

/-- ADD VX, VY writes the low byte of the sum, then VF the carry (R196; order of the writes: R191). -/
def Obligations.AddWritesSumThenCarry : Prop :=
  (∀ x y : Nibble, decode (0x8#4 ++ x ++ y ++ 0x4#4) = .addReg x y) ∧
    ∀ (x y : Nibble) (s : State), ∃ t, exec (.addReg x y) s = .next t ∧
      (x ≠ 0xF#4 → (t.getV x).toNat = ((s.getV x).toNat + (s.getV y).toNat) % 256) ∧
      (t.getV 0xF#4).toNat = ((s.getV x).toNat + (s.getV y).toNat) / 256 ∧
      t.pc = s.pc + 2#16 ∧ (∀ r, r ≠ x → r ≠ 0xF#4 → t.getV r = s.getV r) ∧ UnchangedBut [.v, .pc] s t

/-- SUB VX, VY writes V[X] - V[Y], then VF NOT borrow (R197; order of the writes: R191). -/
def Obligations.SubWritesDifferenceThenNotBorrow : Prop :=
  (∀ x y : Nibble, decode (0x8#4 ++ x ++ y ++ 0x5#4) = .sub x y) ∧
    ∀ (x y : Nibble) (s : State), ∃ t, exec (.sub x y) s = .next t ∧
      (x ≠ 0xF#4 → (t.getV x).toNat = (256 + (s.getV x).toNat - (s.getV y).toNat) % 256) ∧
      (t.getV 0xF#4).toNat = (if (s.getV x).toNat ≥ (s.getV y).toNat then 1 else 0) ∧
      t.pc = s.pc + 2#16 ∧ (∀ r, r ≠ x → r ≠ 0xF#4 → t.getV r = s.getV r) ∧ UnchangedBut [.v, .pc] s t

/-- SHR VX, VY writes VF the bit shifted out, then V[X] = V[Y] >> 1 (R198; order of the writes: R191). -/
def Obligations.ShiftRightWritesFlagThenHalf : Prop :=
  (∀ x y : Nibble, decode (0x8#4 ++ x ++ y ++ 0x6#4) = .shr x y) ∧
    ∀ (x y : Nibble) (s : State), ∃ t, exec (.shr x y) s = .next t ∧
      (t.getV x).toNat = (s.getV y).toNat / 2 ∧
      (x ≠ 0xF#4 → (t.getV 0xF#4).toNat = (s.getV y).toNat % 2) ∧
      t.pc = s.pc + 2#16 ∧ (∀ r, r ≠ x → r ≠ 0xF#4 → t.getV r = s.getV r) ∧ UnchangedBut [.v, .pc] s t

/-- SUBN VX, VY writes V[Y] - V[X], then VF NOT borrow (R199; order of the writes: R191). -/
def Obligations.SubtractReversedWritesDifferenceThenNotBorrow : Prop :=
  (∀ x y : Nibble, decode (0x8#4 ++ x ++ y ++ 0x7#4) = .subn x y) ∧
    ∀ (x y : Nibble) (s : State), ∃ t, exec (.subn x y) s = .next t ∧
      (x ≠ 0xF#4 → (t.getV x).toNat = (256 + (s.getV y).toNat - (s.getV x).toNat) % 256) ∧
      (t.getV 0xF#4).toNat = (if (s.getV y).toNat ≥ (s.getV x).toNat then 1 else 0) ∧
      t.pc = s.pc + 2#16 ∧ (∀ r, r ≠ x → r ≠ 0xF#4 → t.getV r = s.getV r) ∧ UnchangedBut [.v, .pc] s t

/-- SHL VX, VY writes VF the bit shifted out, then V[X] = V[Y] << 1 (R200; order of the writes: R191). -/
def Obligations.ShiftLeftWritesFlagThenDouble : Prop :=
  (∀ x y : Nibble, decode (0x8#4 ++ x ++ y ++ 0xE#4) = .shl x y) ∧
    ∀ (x y : Nibble) (s : State), ∃ t, exec (.shl x y) s = .next t ∧
      (t.getV x).toNat = 2 * (s.getV y).toNat % 256 ∧
      (x ≠ 0xF#4 → (t.getV 0xF#4).toNat = (s.getV y).toNat / 128) ∧
      t.pc = s.pc + 2#16 ∧ (∀ r, r ≠ x → r ≠ 0xF#4 → t.getV r = s.getV r) ∧ UnchangedBut [.v, .pc] s t

/-- 45_9_to_C R212. -/
def Obligations.LoadIndexWritesNNN : Prop :=
  (∀ nnn : Addr12, decode (0xA#4 ++ nnn) = .ldI nnn) ∧
    ∀ (nnn : Addr12) (s : State), ∃ t, exec (.ldI nnn) s = .next t ∧ t.iReg.toNat = nnn.toNat ∧
      t.pc = s.pc + 2#16 ∧ UnchangedBut [.iReg, .pc] s t

/-- 45_9_to_C R213. -/
def Obligations.ComputedJumpAddsVZero : Prop :=
  (∀ nnn : Addr12, decode (0xB#4 ++ nnn) = .jpV0 nnn) ∧
    ∀ (nnn : Addr12) (s : State), ∃ t, exec (.jpV0 nnn) s = .next t ∧
      t.pc.toNat = nnn.toNat + (s.getV 0x0#4).toNat ∧ t.pc.toNat ≤ 0x10FE ∧ UnchangedBut [.pc] s t

/-- 45_9_to_C R214. The sampled byte is the free value of log entry 2; the draw counter is the model's own field. -/
def Obligations.RandomIsMaskedByNN : Prop :=
  (∀ (x : Nibble) (nn : Byte), decode (0xC#4 ++ x ++ nn) = .rnd x nn) ∧
    ∀ (x : Nibble) (nn : Byte) (s : State), ∃ t, exec (.rnd x nn) s = .next t ∧
      t.getV x = (Config.rnd s.rndDraws &&& nn) ∧ t.rndDraws = s.rndDraws + 1 ∧
      (∀ k, nn.getLsbD k = false → (t.getV x).getLsbD k = false) ∧ (nn = 0x00#8 → t.getV x = 0x00#8) ∧
      t.pc = s.pc + 2#16 ∧ (∀ r, r ≠ x → t.getV r = s.getV r) ∧ UnchangedBut [.v, .pc, .rndDraws] s t

/-- 45_9_to_C R215 and the event of R216. -/
def Obligations.UnrecognizedWordIsALoggedNoOp : Prop :=
  ∀ (w : Word) (s : State), ∃ t, exec (.unrecognized w) s = .next t ∧ t.pc = s.pc + 2#16 ∧
    t.events = ⟨w, s.pc⟩ :: s.events ∧ unrecOutput s t = some ⟨w, s.pc⟩ ∧ UnchangedBut [.pc, .events] s t

/-- 41_system_0x0 R163, 42_flow_1_to_5 R176, 44_alu_8 R201, 45_9_to_C R211. -/
def Obligations.OtherWordsOfFourFamiliesAreNoOps : Prop :=
  ∀ (w : Word) (s : State),
    (w.toNat < 0x1000 ∧ w ≠ 0x0000#16 ∧ w ≠ 0x00E0#16 ∧ w ≠ 0x00EE#16) ∨
      (w.toNat / 0x1000 = 0x5 ∧ w.toNat % 0x10 ≠ 0) ∨
      (w.toNat / 0x1000 = 0x8 ∧ w.toNat % 0x10 ∈ [0x8, 0x9, 0xA, 0xB, 0xC, 0xD, 0xF]) ∨
      (w.toNat / 0x1000 = 0x9 ∧ w.toNat % 0x10 ≠ 0) →
    ∃ t, exec (decode w) s = .next t ∧ t.pc = s.pc + 2#16 ∧ t.events = ⟨w, s.pc⟩ :: s.events ∧
      UnchangedBut [.pc, .events] s t

/-- 40_cycle R140, with the return of R141: what step adds around exec. -/
def Obligations.StepRunsTheFetchedInstruction : Prop :=
  (∀ s : State, ¬ Running s → step s = .next s) ∧
    ∀ (s g : State) (w : Word), Running s → g = (if s.params.timerOnCycle then s.tick else s).fetchGuard →
      w = g.mem.byteAt g.fetchAddr0 ++ g.mem.byteAt g.fetchAddr1 →
      step s = exec (decode w) { g with lastWord := w }

/-- 40_cycle R142. -/
def Obligations.FetchGuardFollowsItsParameter : Prop :=
  (∀ s : State, s.params.fetchOverrun = .reset →
      s.fetchGuard.pc.toNat = (if s.pc.toNat > 0xFFE then 0x200 else s.pc.toNat) ∧
      s.fetchGuard.fetchAddr0 = s.fetchGuard.pc.toNat ∧ s.fetchGuard.fetchAddr1 = s.fetchGuard.pc.toNat + 1) ∧
    (∀ s : State, s.params.fetchOverrun = .wrap →
      s.fetchGuard.pc.toNat = s.pc.toNat % 0x1000 ∧
      s.fetchGuard.fetchAddr0 = s.fetchGuard.pc.toNat ∧
      s.fetchGuard.fetchAddr1 = (s.fetchGuard.pc.toNat + 1) % 0x1000) ∧
    (∀ s : State, UnchangedBut [.pc] s s.fetchGuard ∧ s.fetchGuard.fetchAddr0 < 4096 ∧ s.fetchGuard.fetchAddr1 < 4096) ∧
    (∀ s t : State, Running s → step s = .next t → t.fault ≠ .none → t.pc = s.fetchGuard.pc) ∧
    State.reset.params.fetchOverrun = .reset

/-- 40_cycle R144 (20_memory R84). -/
def Obligations.FetchIsBigEndian : Prop :=
  ∀ s : State, ∃ w, s.beginCycle.fetchWord = .ok w ∧
    w.toNat = (s.beginCycle.mem.byteAt s.beginCycle.fetchAddr0).toNat * 256 +
      (s.beginCycle.mem.byteAt s.beginCycle.fetchAddr1).toNat

/-- 40_cycle R143. -/
def Obligations.CycleTicksOnlyWhenSo : Prop :=
  (∀ s t : State, Running s → step s = .next t →
      t.dt.toNat = (if s.params.timerOnCycle then s.dt.toNat - 1 else s.dt.toNat) ∧
      t.st.toNat = (if s.params.timerOnCycle then s.st.toNat - 1 else s.st.toNat)) ∧
    State.reset.params.timerOnCycle = false

/-- 40_cycle R148. -/
def Obligations.LastWordIsTheFetchedWord : Prop :=
  ∀ s t : State, Running s → step s = .next t →
    t.lastWord = fetchedWord s ∧ t.outputs.word = fetchedWord s

/-- 40_cycle R150. -/
def Obligations.FaultsArePrecise : Prop :=
  ∀ s t : State, Running s → step s = .next t → t.fault ≠ .none →
    UnchangedBut [.fault, .lastWord] s.beginCycle t ∧ t.lastWord = fetchedWord s ∧ t.pc = s.beginCycle.pc ∧
      faultOf s.beginCycle (decode (fetchedWord s)) = some t.fault

/-- 60_exceptions R232. -/
def Obligations.FaultsHaveExactlyThreeCauses : Prop :=
  (∀ s t : State, Running s → step s = .next t →
      (∀ c, faultOf s.beginCycle (decode (fetchedWord s)) = some c →
        t.fault = c ∧ t.pc = s.beginCycle.pc ∧ t.lastWord = fetchedWord s) ∧
      (faultOf s.beginCycle (decode (fetchedWord s)) = none → t.fault = .none)) ∧
    FaultCode.none.bits = 0#2 ∧ FaultCode.stackOverflow.bits = 1#2 ∧ FaultCode.stackUnderflow.bits = 2#2 ∧
    FaultCode.jumpTarget.bits = 3#2

/-- 40_cycle R147. -/
def Obligations.EveryInstructionSetsPcByItsClass : Prop :=
  ∀ (i : Instr) (s t : State), exec i s = .next t →
    (faultOf s i = none →
      match pcClass s i with
      | .straight => t.pc = s.pc + 2#16
      | .skip c => t.pc = (if c then s.pc + 4#16 else s.pc + 2#16)
      | .absolute target => t.pc = target
      | .return => s.stack[s.sp.toNat - 1]? = some t.pc) ∧
    (faultOf s i ≠ none → t.pc = s.pc)

/-- The frame of every instruction: 10_state R32, R36, R47 and 20_memory R92. -/
def Obligations.InstructionsWriteOnlyTheirParts : Prop :=
  ∀ (i : Instr) (s t : State), exec i s = .next t →
    UnchangedBut (partsWritten i) s t ∧ ∀ r, r ∉ regsWritten i → t.getV r = s.getV r

/-- The reads and writes columns of 10_state R32, as noninterference. -/
def Obligations.InstructionsReadOnlyTheirRegisters : Prop :=
  ∀ (i : Instr) (s : State) (v' : Vector Byte 16),
    (∀ r ∈ regsRead i, ({ s with v := v' } : State).getV r = s.getV r) →
    ∀ t, exec i s = .next t →
      ∃ t', exec i { s with v := v' } = .next t' ∧ { t' with v := t.v } = t ∧
        ∀ r ∈ regsWritten i, t'.getV r = t.getV r

/-- 20_memory R87 and R92, for the whole instruction set. -/
def Obligations.InstructionsNeverTouchMemory : Prop :=
  ∀ (i : Instr) (s : State) (m : Memory), exec i (s.setMem m) = mapNext (·.setMem m) (exec i s)

/-- 10_state R33. -/
def Obligations.IndexRegisterIsWriteOnly : Prop :=
  ∀ (i : Instr) (s : State) (a : Word),
    ((∀ nnn, i ≠ .ldI nnn) → exec i (s.setI a) = mapNext (·.setI a) (exec i s)) ∧
      ∀ nnn, exec (.ldI nnn) (s.setI a) = exec (.ldI nnn) s

/-- 60_exceptions R246, with the inference it marks as its own ('Both timers stay 0 from reset, because nothing ever loads
them'), from R243 and 10_state R45. -/
def Obligations.TimersAreUntouchedByInstructions : Prop :=
  (∀ (i : Instr) (s : State) (d e : Byte),
      exec i { s with dt := d, st := e } = mapNext (fun t => { t with dt := d, st := e }) (exec i s)) ∧
    TimersZero State.reset ∧
    (∀ (input : HostInput) (s t : State), TimersZero s → hostStep input s = .next t → TimersZero t) ∧
    ∀ (input : HostInput) (s t : State), input.rst = false → input.tick = false →
      (s.params.timerOnCycle = false ∨ input.request ≠ some .cycle ∨ ¬ Running s) → hostStep input s = .next t →
      t.dt = s.dt ∧ t.st = s.st

/-- The invariant at reset (10_state R45). -/
def Obligations.ResetSatisfiesTheInvariant : Prop :=
  Inv State.reset

/-- 10_state R33, R35, R36, R39, R47 and 40_cycle R149, as an invariant of the cycle. -/
def Obligations.StepKeepsTheInvariant : Prop :=
  ∀ s t : State, Inv s → step s = .next t → Inv t

/-- No encoding is illegal (30_encoding R119) and the guard keeps the fetch in memory (40_cycle R142); SP is in 0..12 by 10_state R36.
A stopped core's cycle answers the state unchanged (40_cycle R141, log entry 4). -/
def Obligations.CycleNeverStopsTheModel : Prop :=
  ∀ s : State, s.sp.toNat ≤ 12 → ∃ t, step s = .next t

/-- 60_exceptions R246 and R250 for every step of the host protocol, loads included (70_reset_and_hazards R275), and for whole
runs from reset, whatever the parameters (log entry 1). A stopped core's cycle is log entry 4 (40_cycle R141), and a TICK with a
load or a reset is log entry 6. -/
def Obligations.EveryHostRunFromResetGoesOn : Prop :=
  (∀ (input : HostInput) (s : State), Inv s → TimersZero s → ∃ t, hostStep input s = .next t ∧ Inv t ∧ TimersZero t) ∧
    ∀ (inputs : List HostInput) (p : Config.Params),
      ∃ t, hostRun inputs { State.reset with params := p } = .next t ∧ Inv t ∧ TimersZero t

/-- 10_state R40 and 60_exceptions R238, R253; the frame is that of the cycle guard (40_cycle R141, answered as log entry 4
says), the tick (60_exceptions R243) and the load (70_reset_and_hazards R275, R276); R270 for the reset. -/
def Obligations.StopLastsUntilReset : Prop :=
  (∀ (input : HostInput) (s : State), ¬ Running s → input.rst = false →
      ∃ t, hostStep input s = .next t ∧ UnchangedBut [.mem, .pc, .loadStatus, .dt, .st] s t) ∧
    ∀ (input : HostInput) (s : State), input.rst = true → ∃ t, hostStep input s = .next t ∧ Running t

/-- 60_exceptions R254: how a run ends. -/
def Obligations.HaltedIsSetOnlyByTheHaltWord : Prop :=
  ∀ s t : State, Running s → step s = .next t →
    (runEnd t = .ended ↔ fetchedWord s = 0x0000#16) ∧ (runEnd t = .failed ↔ t.fault ≠ .none)

/-- 10_state R45. -/
def Obligations.ResetGivesEveryStatedValue : Prop :=
  ∀ s r : State, r = s.resetCore ∨ r = State.reset →
    (∀ a, r.mem.byteAt a = 0x00#8) ∧ (∀ x, r.getV x = 0x00#8) ∧ r.iReg = 0x0000#16 ∧ r.pc = 0x0200#16 ∧ r.sp = 0#4 ∧
      (∀ k, (h : k < 12) → r.stack[k] = 0x0000#16) ∧ r.dt = 0x00#8 ∧ r.st = 0x00#8 ∧ (∀ k, r.fb.cell k = 0x00#8) ∧
      r.halted = false ∧ r.fault = .none ∧ r.lastWord = 0x0000#16 ∧ r.loadStatus = .ok

/-- The inference that 70_reset_and_hazards R271 marks as its own ('so a cycle right after reset, with no load, fetches
0x0000 at 0x200 and halts'), from R270, 10_state R45, 40_cycle R144 and 41_system_0x0 R160. -/
def Obligations.FirstCycleAfterResetHalts : Prop :=
  ∀ s : State, s.resetCore.pc = 0x0200#16 ∧
    ∃ t, step s.resetCore = .next t ∧ t.halted = true ∧ t.pc = 0x0202#16 ∧ t.lastWord = 0x0000#16

/-- 70_reset_and_hazards R275 and R276. -/
def Obligations.LoadPlacesTheImage : Prop :=
  (∀ (s : State) (image : List Byte), image.length ≤ 3584 →
      ∃ t, hostStep ⟨false, false, some (.load image)⟩ s = .next t ∧
        (∀ k, (h : k < image.length) → t.mem.byteAt (0x200 + k) = image[k]) ∧
        (∀ a, a < 0x200 ∨ 0x200 + image.length ≤ a → t.mem.byteAt a = 0x00#8) ∧
        t.pc = 0x0200#16 ∧ t.loadStatus = .ok ∧ UnchangedBut [.mem, .pc, .loadStatus] s t) ∧
    ∀ (s : State) (image : List Byte), 3584 < image.length →
      ∃ t, hostStep ⟨false, false, some (.load image)⟩ s = .next t ∧ t.loadStatus = .loadError ∧
        UnchangedBut [.loadStatus] s t

/-- 60_exceptions R243 and R245. -/
def Obligations.TickCountsBothTimersDown : Prop :=
  ∀ s : State, ∃ t, hostStep ⟨false, true, none⟩ s = .next t ∧ t.dt.toNat = s.dt.toNat - 1 ∧ t.st.toNat = s.st.toNat - 1 ∧
    UnchangedBut [.dt, .st] s t

/-- 60_exceptions R244. -/
def Obligations.TickWithCycleComesFirst : Prop :=
  (∀ s : State, hostStep ⟨false, true, none⟩ s = .next s.tick ∧
      hostStep ⟨false, true, some .cycle⟩ s = step s.tick) ∧
    (∀ s t : State, Running s → s.params.timerOnCycle = true → hostStep ⟨false, false, some .cycle⟩ s = .next t →
      t.dt.toNat = s.dt.toNat - 1 ∧ t.st.toNat = s.st.toNat - 1) ∧
    (∀ s t : State, Running s → s.params.timerOnCycle = true → hostStep ⟨false, true, some .cycle⟩ s = .next t →
      t.dt.toNat = s.dt.toNat - 2 ∧ t.st.toNat = s.st.toNat - 2) ∧
    ∀ s : State, mapNext forgetTimers (hostStep ⟨false, true, some .cycle⟩ s) =
      mapNext forgetTimers (hostStep ⟨false, false, some .cycle⟩ s)

/-- 10_state R48, 60_exceptions R237 and 70_reset_and_hazards R270; that RST discards a TICK of the same step is log entry 6. -/
def Obligations.ResetTakesPriority : Prop :=
  ∀ (tick : Bool) (request : Option Request) (s : State),
    ∃ t, hostStep ⟨true, tick, request⟩ s = .next t ∧ hostStep ⟨true, false, none⟩ s = .next t ∧
      Running t ∧ t.pc = 0x0200#16 ∧ t.sp = 0#4

/-- 10_state R39 and the FB_DATA port of R48. -/
def Obligations.PixelsHaveTheirOwnCells : Prop :=
  (∀ (x : BitVec 6) (y : BitVec 5), (fbIndex x y).toNat = y.toNat * 64 + x.toNat) ∧
    (∀ (x x' : BitVec 6) (y y' : BitVec 5), fbIndex x y = fbIndex x' y' → x = x' ∧ y = y') ∧
    ∀ (s : State) (x : BitVec 6) (y : BitVec 5), s.pixelOn x y = true ↔ s.fb.cell (y.toNat * 64 + x.toNat) ≠ 0x00#8

/-- The model's placing device (log entry 8) against the fetch of 20_memory R84 and 40_cycle R142. -/
def Obligations.PlacedWordRunsNext : Prop :=
  ∀ (s : State) (w : Word), s.mem.wf = true →
    Running (s.withFetchWord 16 w.toNat) ∧ fetchedWord (s.withFetchWord 16 w.toNat) = w ∧
      ∀ a, a ≠ s.fetchGuard.fetchAddr0 → a ≠ s.fetchGuard.fetchAddr1 →
        (s.withFetchWord 16 w.toNat).mem.byteAt a = s.mem.byteAt a
end

