-- ==== Sys2Proof/Laws/Memory.lean ====
section
/-! SUPPORT. The byte stores: read after write, and that every operation over MEM keeps its canonical form. -/

namespace Sys2Proof.Machine

/-- A store whose keys all start at `lo` reads as zero below it. -/
theorem cellsRead_below {size lo : Nat} {m : List Host.Cell} (h : cellsWf size lo m = true) {a : Nat} (ha : a < lo) :
    cellsRead m a = 0x00#8 := by
  induction m generalizing lo with
  | nil => rfl
  | cons p rest ih =>
    obtain ⟨k, b⟩ := p
    simp only [cellsWf, Bool.and_eq_true, decide_eq_true_eq] at h
    have hk : k ≠ a := by omega
    simpa [cellsRead, hk] using ih h.2 (by omega)

/-- A store reads as zero from its size on. -/
theorem cellsRead_beyond {size lo : Nat} {m : List Host.Cell} (h : cellsWf size lo m = true) {a : Nat} (ha : size ≤ a) :
    cellsRead m a = 0x00#8 := by
  induction m generalizing lo with
  | nil => rfl
  | cons p rest ih =>
    obtain ⟨k, b⟩ := p
    simp only [cellsWf, Bool.and_eq_true, decide_eq_true_eq] at h
    have hk : k ≠ a := by omega
    simpa [cellsRead, hk] using ih h.2

/-- The canonical form from a lower bound on is the canonical form from every smaller one. -/
theorem cellsWf_mono {size lo lo' : Nat} {m : List Host.Cell} (h : cellsWf size lo m = true) (hl : lo' ≤ lo) :
    cellsWf size lo' m = true := by
  cases m with
  | nil => rfl
  | cons p rest =>
    obtain ⟨k, b⟩ := p
    simp only [cellsWf, Bool.and_eq_true, decide_eq_true_eq] at h ⊢
    exact ⟨⟨⟨by omega, h.1.1.2⟩, h.1.2⟩, h.2⟩

/-- A read after a write gives the byte written at that address, and the byte before it everywhere else. -/
theorem cellsRead_cellsWrite {size lo : Nat} {m : List Host.Cell} (h : cellsWf size lo m = true) (a q : Nat) (b : Byte) :
    cellsRead (cellsWrite m a b) q = if q = a then b else cellsRead m q := by
  induction m generalizing lo with
  | nil =>
    by_cases hb : b = 0x00#8 <;> by_cases hq : q = a <;> simp [cellsWrite, cellsRead, hb, hq]
    exact fun h => absurd h.symm hq
  | cons p rest ih =>
    obtain ⟨k, c⟩ := p
    simp only [cellsWf, Bool.and_eq_true, decide_eq_true_eq] at h
    have hbelow : ∀ x, x < k + 1 → cellsRead rest x = 0x00#8 := fun x hx => cellsRead_below h.2 hx
    rcases lt_trichotomy a k with hak | hak | hak
    · have hka : k ≠ a := by omega
      by_cases hb : b = 0x00#8 <;> by_cases hq : q = a
      · subst hq; simp [cellsWrite, cellsRead, hak, hb, hka, hbelow q (by omega)]
      · simp [cellsWrite, hak, hb, hq]
      · subst hq; simp [cellsWrite, cellsRead, hak, hb]
      · simp [cellsWrite, cellsRead, hak, hb, hq, Ne.symm hq]
    · subst hak
      by_cases hb : b = 0x00#8 <;> by_cases hq : q = a
      · subst hq; simp [cellsWrite, hb, hbelow q (by omega)]
      · simp [cellsWrite, cellsRead, hb, hq, Ne.symm hq]
      · subst hq; simp [cellsWrite, cellsRead, hb]
      · simp [cellsWrite, cellsRead, hb, hq, Ne.symm hq]
    · have h1 : ¬ a < k := by omega
      have h2 : a ≠ k := by omega
      by_cases hq : k = q
      · subst hq; simp [cellsWrite, cellsRead, h1, h2, Ne.symm h2]
      · simpa [cellsWrite, cellsRead, h1, h2, hq] using ih h.2

/-- A write keeps the canonical form. -/
theorem cellsWf_cellsWrite {size lo : Nat} {m : List Host.Cell} (h : cellsWf size lo m = true) {a : Nat} (b : Byte)
    (hlo : lo ≤ a) (ha : a < size) : cellsWf size lo (cellsWrite m a b) = true := by
  induction m generalizing lo with
  | nil => by_cases hb : b = 0x00#8 <;> simp [cellsWrite, cellsWf, hb, hlo, ha]
  | cons p rest ih =>
    obtain ⟨k, c⟩ := p
    simp only [cellsWf, Bool.and_eq_true, decide_eq_true_eq] at h
    rcases lt_trichotomy a k with hak | hak | hak
    · by_cases hb : b = 0x00#8
      · simp [cellsWrite, hak, hb, cellsWf, h]
      · simp [cellsWrite, hak, hb, cellsWf, h, hlo, ha, Nat.succ_le_of_lt hak]
    · subst hak
      by_cases hb : b = 0x00#8
      · simpa [cellsWrite, hb] using cellsWf_mono h.2 (by omega)
      · simp [cellsWrite, hb, cellsWf, h]
    · have h1 : ¬ a < k := by omega
      have h2 : a ≠ k := by omega
      simp [cellsWrite, h1, h2, cellsWf, h, ih h.2 (by omega)]

/-! ### MEM -/

/-- Reset's memory is in canonical form. -/
theorem State.reset_mem_wf : State.reset.mem.wf = true := rfl

/-- A write keeps MEM's canonical form. -/
theorem Memory.write_wf {m : Memory} (h : m.wf = true) (a : Nat) (b : Byte) : (m.write a b).wf = true := by
  unfold Memory.write Memory.wf at *
  split
  · exact cellsWf_cellsWrite h b (Nat.zero_le a) (by assumption)
  · exact h

/-- MEM after a write, byte by byte. -/
theorem Memory.byteAt_write {m : Memory} (h : m.wf = true) {a : Nat} (ha : a < 4096) (b : Byte) (q : Nat) :
    (m.write a b).byteAt q = if q = a then b else m.byteAt q := by
  have ha' : a < Config.memSize := ha
  simpa [Memory.write, Memory.byteAt, ha'] using cellsRead_cellsWrite h a q b

/-- Writing a run of bytes keeps MEM's canonical form. -/
theorem Memory.writeBytes_wf {m : Memory} (h : m.wf = true) (a : Nat) (image : List Byte) :
    (m.writeBytes a image).wf = true := by
  induction image generalizing m a with
  | nil => exact h
  | cons b rest ih => exact ih (Memory.write_wf h a b) (a + 1)

/-- An address MEM does not have faults, and every other one gives its byte. -/
theorem Memory.read_eq (m : Memory) (a : Nat) :
    m.read a = if a < 4096 then .ok (m.byteAt a) else .error (.addressOutsideMemory a) := rfl

/-- Placing a word keeps MEM's canonical form. -/
theorem State.placeWord_mem_wf {s : State} (h : s.mem.wf = true) (w : Word) : (s.placeWord w).mem.wf = true :=
  Memory.write_wf (Memory.write_wf h _ _) _ _

/-- The load leaves MEM in canonical form. -/
theorem State.load_mem_wf {s : State} (h : s.mem.wf = true) (image : List Byte) : (s.load image).mem.wf = true := by
  unfold State.load
  split
  · exact h
  · exact Memory.writeBytes_wf (m := []) rfl _ image

/-- A cleared framebuffer reads as zero and is in canonical form. -/
theorem State.clearFb_cell (s : State) (k : Nat) : s.clearFb.fb.cell k = 0 := rfl

theorem State.clearFb_wf (s : State) : s.clearFb.fb.wf = true := rfl

end Sys2Proof.Machine
end

