-- ==== Sys2Proof/Laws/State.lean ====
section
/-! SUPPORT. Beside State: for each named update, the value of every field after it. -/

namespace Sys2Proof.Machine

variable (s : State)

@[simp] theorem State.clearFb_mem : s.clearFb.mem = s.mem := rfl
@[simp] theorem State.clearFb_v : s.clearFb.v = s.v := rfl
@[simp] theorem State.clearFb_iReg : s.clearFb.iReg = s.iReg := rfl
@[simp] theorem State.clearFb_pc : s.clearFb.pc = s.pc := rfl
@[simp] theorem State.clearFb_sp : s.clearFb.sp = s.sp := rfl
@[simp] theorem State.clearFb_stack : s.clearFb.stack = s.stack := rfl
@[simp] theorem State.clearFb_dt : s.clearFb.dt = s.dt := rfl
@[simp] theorem State.clearFb_st : s.clearFb.st = s.st := rfl
@[simp] theorem State.clearFb_fb : s.clearFb.fb = [] := rfl
@[simp] theorem State.clearFb_halted : s.clearFb.halted = s.halted := rfl
@[simp] theorem State.clearFb_fault : s.clearFb.fault = s.fault := rfl
@[simp] theorem State.clearFb_lastWord : s.clearFb.lastWord = s.lastWord := rfl
@[simp] theorem State.clearFb_loadStatus : s.clearFb.loadStatus = s.loadStatus := rfl
@[simp] theorem State.clearFb_params : s.clearFb.params = s.params := rfl
@[simp] theorem State.clearFb_events : s.clearFb.events = s.events := rfl
@[simp] theorem State.clearFb_rndDraws : s.clearFb.rndDraws = s.rndDraws := rfl

@[simp] theorem State.setV_mem (x : Nibble) (b : Byte) : (s.setV x b).mem = s.mem := rfl
@[simp] theorem State.setV_v (x : Nibble) (b : Byte) : (s.setV x b).v = s.v.set x.toNat b x.isLt := rfl
@[simp] theorem State.setV_iReg (x : Nibble) (b : Byte) : (s.setV x b).iReg = s.iReg := rfl
@[simp] theorem State.setV_pc (x : Nibble) (b : Byte) : (s.setV x b).pc = s.pc := rfl
@[simp] theorem State.setV_sp (x : Nibble) (b : Byte) : (s.setV x b).sp = s.sp := rfl
@[simp] theorem State.setV_stack (x : Nibble) (b : Byte) : (s.setV x b).stack = s.stack := rfl
@[simp] theorem State.setV_dt (x : Nibble) (b : Byte) : (s.setV x b).dt = s.dt := rfl
@[simp] theorem State.setV_st (x : Nibble) (b : Byte) : (s.setV x b).st = s.st := rfl
@[simp] theorem State.setV_fb (x : Nibble) (b : Byte) : (s.setV x b).fb = s.fb := rfl
@[simp] theorem State.setV_halted (x : Nibble) (b : Byte) : (s.setV x b).halted = s.halted := rfl
@[simp] theorem State.setV_fault (x : Nibble) (b : Byte) : (s.setV x b).fault = s.fault := rfl
@[simp] theorem State.setV_lastWord (x : Nibble) (b : Byte) : (s.setV x b).lastWord = s.lastWord := rfl
@[simp] theorem State.setV_loadStatus (x : Nibble) (b : Byte) : (s.setV x b).loadStatus = s.loadStatus := rfl
@[simp] theorem State.setV_params (x : Nibble) (b : Byte) : (s.setV x b).params = s.params := rfl
@[simp] theorem State.setV_events (x : Nibble) (b : Byte) : (s.setV x b).events = s.events := rfl
@[simp] theorem State.setV_rndDraws (x : Nibble) (b : Byte) : (s.setV x b).rndDraws = s.rndDraws := rfl

@[simp] theorem State.setI_mem (a : Word) : (s.setI a).mem = s.mem := rfl
@[simp] theorem State.setI_v (a : Word) : (s.setI a).v = s.v := rfl
@[simp] theorem State.setI_iReg (a : Word) : (s.setI a).iReg = a := rfl
@[simp] theorem State.setI_pc (a : Word) : (s.setI a).pc = s.pc := rfl
@[simp] theorem State.setI_sp (a : Word) : (s.setI a).sp = s.sp := rfl
@[simp] theorem State.setI_stack (a : Word) : (s.setI a).stack = s.stack := rfl
@[simp] theorem State.setI_dt (a : Word) : (s.setI a).dt = s.dt := rfl
@[simp] theorem State.setI_st (a : Word) : (s.setI a).st = s.st := rfl
@[simp] theorem State.setI_fb (a : Word) : (s.setI a).fb = s.fb := rfl
@[simp] theorem State.setI_halted (a : Word) : (s.setI a).halted = s.halted := rfl
@[simp] theorem State.setI_fault (a : Word) : (s.setI a).fault = s.fault := rfl
@[simp] theorem State.setI_lastWord (a : Word) : (s.setI a).lastWord = s.lastWord := rfl
@[simp] theorem State.setI_loadStatus (a : Word) : (s.setI a).loadStatus = s.loadStatus := rfl
@[simp] theorem State.setI_params (a : Word) : (s.setI a).params = s.params := rfl
@[simp] theorem State.setI_events (a : Word) : (s.setI a).events = s.events := rfl
@[simp] theorem State.setI_rndDraws (a : Word) : (s.setI a).rndDraws = s.rndDraws := rfl

@[simp] theorem State.setPc_mem (a : Word) : (s.setPc a).mem = s.mem := rfl
@[simp] theorem State.setPc_v (a : Word) : (s.setPc a).v = s.v := rfl
@[simp] theorem State.setPc_iReg (a : Word) : (s.setPc a).iReg = s.iReg := rfl
@[simp] theorem State.setPc_pc (a : Word) : (s.setPc a).pc = a := rfl
@[simp] theorem State.setPc_sp (a : Word) : (s.setPc a).sp = s.sp := rfl
@[simp] theorem State.setPc_stack (a : Word) : (s.setPc a).stack = s.stack := rfl
@[simp] theorem State.setPc_dt (a : Word) : (s.setPc a).dt = s.dt := rfl
@[simp] theorem State.setPc_st (a : Word) : (s.setPc a).st = s.st := rfl
@[simp] theorem State.setPc_fb (a : Word) : (s.setPc a).fb = s.fb := rfl
@[simp] theorem State.setPc_halted (a : Word) : (s.setPc a).halted = s.halted := rfl
@[simp] theorem State.setPc_fault (a : Word) : (s.setPc a).fault = s.fault := rfl
@[simp] theorem State.setPc_lastWord (a : Word) : (s.setPc a).lastWord = s.lastWord := rfl
@[simp] theorem State.setPc_loadStatus (a : Word) : (s.setPc a).loadStatus = s.loadStatus := rfl
@[simp] theorem State.setPc_params (a : Word) : (s.setPc a).params = s.params := rfl
@[simp] theorem State.setPc_events (a : Word) : (s.setPc a).events = s.events := rfl
@[simp] theorem State.setPc_rndDraws (a : Word) : (s.setPc a).rndDraws = s.rndDraws := rfl

@[simp] theorem State.setHalted_mem : s.setHalted.mem = s.mem := rfl
@[simp] theorem State.setHalted_v : s.setHalted.v = s.v := rfl
@[simp] theorem State.setHalted_iReg : s.setHalted.iReg = s.iReg := rfl
@[simp] theorem State.setHalted_pc : s.setHalted.pc = s.pc := rfl
@[simp] theorem State.setHalted_sp : s.setHalted.sp = s.sp := rfl
@[simp] theorem State.setHalted_stack : s.setHalted.stack = s.stack := rfl
@[simp] theorem State.setHalted_dt : s.setHalted.dt = s.dt := rfl
@[simp] theorem State.setHalted_st : s.setHalted.st = s.st := rfl
@[simp] theorem State.setHalted_fb : s.setHalted.fb = s.fb := rfl
@[simp] theorem State.setHalted_halted : s.setHalted.halted = true := rfl
@[simp] theorem State.setHalted_fault : s.setHalted.fault = s.fault := rfl
@[simp] theorem State.setHalted_lastWord : s.setHalted.lastWord = s.lastWord := rfl
@[simp] theorem State.setHalted_loadStatus : s.setHalted.loadStatus = s.loadStatus := rfl
@[simp] theorem State.setHalted_params : s.setHalted.params = s.params := rfl
@[simp] theorem State.setHalted_events : s.setHalted.events = s.events := rfl
@[simp] theorem State.setHalted_rndDraws : s.setHalted.rndDraws = s.rndDraws := rfl

@[simp] theorem State.setFault_mem (c : FaultCode) : (s.setFault c).mem = s.mem := rfl
@[simp] theorem State.setFault_v (c : FaultCode) : (s.setFault c).v = s.v := rfl
@[simp] theorem State.setFault_iReg (c : FaultCode) : (s.setFault c).iReg = s.iReg := rfl
@[simp] theorem State.setFault_pc (c : FaultCode) : (s.setFault c).pc = s.pc := rfl
@[simp] theorem State.setFault_sp (c : FaultCode) : (s.setFault c).sp = s.sp := rfl
@[simp] theorem State.setFault_stack (c : FaultCode) : (s.setFault c).stack = s.stack := rfl
@[simp] theorem State.setFault_dt (c : FaultCode) : (s.setFault c).dt = s.dt := rfl
@[simp] theorem State.setFault_st (c : FaultCode) : (s.setFault c).st = s.st := rfl
@[simp] theorem State.setFault_fb (c : FaultCode) : (s.setFault c).fb = s.fb := rfl
@[simp] theorem State.setFault_halted (c : FaultCode) : (s.setFault c).halted = s.halted := rfl
@[simp] theorem State.setFault_fault (c : FaultCode) : (s.setFault c).fault = c := rfl
@[simp] theorem State.setFault_lastWord (c : FaultCode) : (s.setFault c).lastWord = s.lastWord := rfl
@[simp] theorem State.setFault_loadStatus (c : FaultCode) : (s.setFault c).loadStatus = s.loadStatus := rfl
@[simp] theorem State.setFault_params (c : FaultCode) : (s.setFault c).params = s.params := rfl
@[simp] theorem State.setFault_events (c : FaultCode) : (s.setFault c).events = s.events := rfl
@[simp] theorem State.setFault_rndDraws (c : FaultCode) : (s.setFault c).rndDraws = s.rndDraws := rfl

@[simp] theorem State.setLastWord_mem (w : Word) : (s.setLastWord w).mem = s.mem := rfl
@[simp] theorem State.setLastWord_v (w : Word) : (s.setLastWord w).v = s.v := rfl
@[simp] theorem State.setLastWord_iReg (w : Word) : (s.setLastWord w).iReg = s.iReg := rfl
@[simp] theorem State.setLastWord_pc (w : Word) : (s.setLastWord w).pc = s.pc := rfl
@[simp] theorem State.setLastWord_sp (w : Word) : (s.setLastWord w).sp = s.sp := rfl
@[simp] theorem State.setLastWord_stack (w : Word) : (s.setLastWord w).stack = s.stack := rfl
@[simp] theorem State.setLastWord_dt (w : Word) : (s.setLastWord w).dt = s.dt := rfl
@[simp] theorem State.setLastWord_st (w : Word) : (s.setLastWord w).st = s.st := rfl
@[simp] theorem State.setLastWord_fb (w : Word) : (s.setLastWord w).fb = s.fb := rfl
@[simp] theorem State.setLastWord_halted (w : Word) : (s.setLastWord w).halted = s.halted := rfl
@[simp] theorem State.setLastWord_fault (w : Word) : (s.setLastWord w).fault = s.fault := rfl
@[simp] theorem State.setLastWord_lastWord (w : Word) : (s.setLastWord w).lastWord = w := rfl
@[simp] theorem State.setLastWord_loadStatus (w : Word) : (s.setLastWord w).loadStatus = s.loadStatus := rfl
@[simp] theorem State.setLastWord_params (w : Word) : (s.setLastWord w).params = s.params := rfl
@[simp] theorem State.setLastWord_events (w : Word) : (s.setLastWord w).events = s.events := rfl
@[simp] theorem State.setLastWord_rndDraws (w : Word) : (s.setLastWord w).rndDraws = s.rndDraws := rfl

@[simp] theorem State.setLoadStatus_mem (r : LoadStatus) : (s.setLoadStatus r).mem = s.mem := rfl
@[simp] theorem State.setLoadStatus_v (r : LoadStatus) : (s.setLoadStatus r).v = s.v := rfl
@[simp] theorem State.setLoadStatus_iReg (r : LoadStatus) : (s.setLoadStatus r).iReg = s.iReg := rfl
@[simp] theorem State.setLoadStatus_pc (r : LoadStatus) : (s.setLoadStatus r).pc = s.pc := rfl
@[simp] theorem State.setLoadStatus_sp (r : LoadStatus) : (s.setLoadStatus r).sp = s.sp := rfl
@[simp] theorem State.setLoadStatus_stack (r : LoadStatus) : (s.setLoadStatus r).stack = s.stack := rfl
@[simp] theorem State.setLoadStatus_dt (r : LoadStatus) : (s.setLoadStatus r).dt = s.dt := rfl
@[simp] theorem State.setLoadStatus_st (r : LoadStatus) : (s.setLoadStatus r).st = s.st := rfl
@[simp] theorem State.setLoadStatus_fb (r : LoadStatus) : (s.setLoadStatus r).fb = s.fb := rfl
@[simp] theorem State.setLoadStatus_halted (r : LoadStatus) : (s.setLoadStatus r).halted = s.halted := rfl
@[simp] theorem State.setLoadStatus_fault (r : LoadStatus) : (s.setLoadStatus r).fault = s.fault := rfl
@[simp] theorem State.setLoadStatus_lastWord (r : LoadStatus) : (s.setLoadStatus r).lastWord = s.lastWord := rfl
@[simp] theorem State.setLoadStatus_loadStatus (r : LoadStatus) : (s.setLoadStatus r).loadStatus = r := rfl
@[simp] theorem State.setLoadStatus_params (r : LoadStatus) : (s.setLoadStatus r).params = s.params := rfl
@[simp] theorem State.setLoadStatus_events (r : LoadStatus) : (s.setLoadStatus r).events = s.events := rfl
@[simp] theorem State.setLoadStatus_rndDraws (r : LoadStatus) : (s.setLoadStatus r).rndDraws = s.rndDraws := rfl

@[simp] theorem State.setMem_mem (m : Memory) : (s.setMem m).mem = m := rfl
@[simp] theorem State.setMem_v (m : Memory) : (s.setMem m).v = s.v := rfl
@[simp] theorem State.setMem_iReg (m : Memory) : (s.setMem m).iReg = s.iReg := rfl
@[simp] theorem State.setMem_pc (m : Memory) : (s.setMem m).pc = s.pc := rfl
@[simp] theorem State.setMem_sp (m : Memory) : (s.setMem m).sp = s.sp := rfl
@[simp] theorem State.setMem_stack (m : Memory) : (s.setMem m).stack = s.stack := rfl
@[simp] theorem State.setMem_dt (m : Memory) : (s.setMem m).dt = s.dt := rfl
@[simp] theorem State.setMem_st (m : Memory) : (s.setMem m).st = s.st := rfl
@[simp] theorem State.setMem_fb (m : Memory) : (s.setMem m).fb = s.fb := rfl
@[simp] theorem State.setMem_halted (m : Memory) : (s.setMem m).halted = s.halted := rfl
@[simp] theorem State.setMem_fault (m : Memory) : (s.setMem m).fault = s.fault := rfl
@[simp] theorem State.setMem_lastWord (m : Memory) : (s.setMem m).lastWord = s.lastWord := rfl
@[simp] theorem State.setMem_loadStatus (m : Memory) : (s.setMem m).loadStatus = s.loadStatus := rfl
@[simp] theorem State.setMem_params (m : Memory) : (s.setMem m).params = s.params := rfl
@[simp] theorem State.setMem_events (m : Memory) : (s.setMem m).events = s.events := rfl
@[simp] theorem State.setMem_rndDraws (m : Memory) : (s.setMem m).rndDraws = s.rndDraws := rfl

@[simp] theorem State.emitUnrecognized_mem (w : Word) : (s.emitUnrecognized w).mem = s.mem := rfl
@[simp] theorem State.emitUnrecognized_v (w : Word) : (s.emitUnrecognized w).v = s.v := rfl
@[simp] theorem State.emitUnrecognized_iReg (w : Word) : (s.emitUnrecognized w).iReg = s.iReg := rfl
@[simp] theorem State.emitUnrecognized_pc (w : Word) : (s.emitUnrecognized w).pc = s.pc := rfl
@[simp] theorem State.emitUnrecognized_sp (w : Word) : (s.emitUnrecognized w).sp = s.sp := rfl
@[simp] theorem State.emitUnrecognized_stack (w : Word) : (s.emitUnrecognized w).stack = s.stack := rfl
@[simp] theorem State.emitUnrecognized_dt (w : Word) : (s.emitUnrecognized w).dt = s.dt := rfl
@[simp] theorem State.emitUnrecognized_st (w : Word) : (s.emitUnrecognized w).st = s.st := rfl
@[simp] theorem State.emitUnrecognized_fb (w : Word) : (s.emitUnrecognized w).fb = s.fb := rfl
@[simp] theorem State.emitUnrecognized_halted (w : Word) : (s.emitUnrecognized w).halted = s.halted := rfl
@[simp] theorem State.emitUnrecognized_fault (w : Word) : (s.emitUnrecognized w).fault = s.fault := rfl
@[simp] theorem State.emitUnrecognized_lastWord (w : Word) : (s.emitUnrecognized w).lastWord = s.lastWord := rfl
@[simp] theorem State.emitUnrecognized_loadStatus (w : Word) : (s.emitUnrecognized w).loadStatus = s.loadStatus := rfl
@[simp] theorem State.emitUnrecognized_params (w : Word) : (s.emitUnrecognized w).params = s.params := rfl
@[simp] theorem State.emitUnrecognized_events (w : Word) : (s.emitUnrecognized w).events = ⟨w, s.pc⟩ :: s.events := rfl
@[simp] theorem State.emitUnrecognized_rndDraws (w : Word) : (s.emitUnrecognized w).rndDraws = s.rndDraws := rfl

@[simp] theorem State.tick_mem : s.tick.mem = s.mem := rfl
@[simp] theorem State.tick_v : s.tick.v = s.v := rfl
@[simp] theorem State.tick_iReg : s.tick.iReg = s.iReg := rfl
@[simp] theorem State.tick_pc : s.tick.pc = s.pc := rfl
@[simp] theorem State.tick_sp : s.tick.sp = s.sp := rfl
@[simp] theorem State.tick_stack : s.tick.stack = s.stack := rfl
@[simp] theorem State.tick_dt : s.tick.dt = countDown s.dt := rfl
@[simp] theorem State.tick_st : s.tick.st = countDown s.st := rfl
@[simp] theorem State.tick_fb : s.tick.fb = s.fb := rfl
@[simp] theorem State.tick_halted : s.tick.halted = s.halted := rfl
@[simp] theorem State.tick_fault : s.tick.fault = s.fault := rfl
@[simp] theorem State.tick_lastWord : s.tick.lastWord = s.lastWord := rfl
@[simp] theorem State.tick_loadStatus : s.tick.loadStatus = s.loadStatus := rfl
@[simp] theorem State.tick_params : s.tick.params = s.params := rfl
@[simp] theorem State.tick_events : s.tick.events = s.events := rfl
@[simp] theorem State.tick_rndDraws : s.tick.rndDraws = s.rndDraws := rfl

@[simp] theorem State.advance_mem : s.advance.mem = s.mem := rfl
@[simp] theorem State.advance_v : s.advance.v = s.v := rfl
@[simp] theorem State.advance_iReg : s.advance.iReg = s.iReg := rfl
@[simp] theorem State.advance_pc : s.advance.pc = s.pc + 2#16 := rfl
@[simp] theorem State.advance_sp : s.advance.sp = s.sp := rfl
@[simp] theorem State.advance_stack : s.advance.stack = s.stack := rfl
@[simp] theorem State.advance_dt : s.advance.dt = s.dt := rfl
@[simp] theorem State.advance_st : s.advance.st = s.st := rfl
@[simp] theorem State.advance_fb : s.advance.fb = s.fb := rfl
@[simp] theorem State.advance_halted : s.advance.halted = s.halted := rfl
@[simp] theorem State.advance_fault : s.advance.fault = s.fault := rfl
@[simp] theorem State.advance_lastWord : s.advance.lastWord = s.lastWord := rfl
@[simp] theorem State.advance_loadStatus : s.advance.loadStatus = s.loadStatus := rfl
@[simp] theorem State.advance_params : s.advance.params = s.params := rfl
@[simp] theorem State.advance_events : s.advance.events = s.events := rfl
@[simp] theorem State.advance_rndDraws : s.advance.rndDraws = s.rndDraws := rfl

/-! ### The register file through its accessors -/

/-- A register reads as the value written to it, and every other register as before. -/
@[simp] theorem State.getV_setV (x : Nibble) (b : Byte) (r : Nibble) :
    (s.setV x b).getV r = if r = x then b else s.getV r := by
  simp [State.getV, State.setV, Vector.getElem_set, BitVec.toNat_inj, eq_comm]

@[simp] theorem State.clearFb_getV (q : Nibble) : s.clearFb.getV q = s.getV q := rfl
@[simp] theorem State.setI_getV (a : Word) (q : Nibble) : (s.setI a).getV q = s.getV q := rfl
@[simp] theorem State.setPc_getV (a : Word) (q : Nibble) : (s.setPc a).getV q = s.getV q := rfl
@[simp] theorem State.setHalted_getV (q : Nibble) : s.setHalted.getV q = s.getV q := rfl
@[simp] theorem State.setFault_getV (c : FaultCode) (q : Nibble) : (s.setFault c).getV q = s.getV q := rfl
@[simp] theorem State.setLastWord_getV (w : Word) (q : Nibble) : (s.setLastWord w).getV q = s.getV q := rfl
@[simp] theorem State.setLoadStatus_getV (r : LoadStatus) (q : Nibble) : (s.setLoadStatus r).getV q = s.getV q := rfl
@[simp] theorem State.setMem_getV (m : Memory) (q : Nibble) : (s.setMem m).getV q = s.getV q := rfl
@[simp] theorem State.emitUnrecognized_getV (w : Word) (q : Nibble) : (s.emitUnrecognized w).getV q = s.getV q := rfl
@[simp] theorem State.tick_getV (q : Nibble) : s.tick.getV q = s.getV q := rfl
@[simp] theorem State.advance_getV (q : Nibble) : s.advance.getV q = s.getV q := rfl

/-- What sampling RND gives: the free byte, and one more draw. -/
theorem State.drawRnd_eq : s.drawRnd = (Config.rnd s.rndDraws, { s with rndDraws := s.rndDraws + 1 }) := rfl

/-- A skip writes PC and nothing else. -/
theorem State.skipIf_eq (c : Bool) : s.skipIf c = s.setPc (if c then s.pc + 2#16 + 2#16 else s.pc + 2#16) := by
  cases c <;> rfl

/-- Result then flag: VF ends as the flag, whatever X is (44_alu_8 R191). -/
theorem State.getV_writeResultThenFlag (x r : Nibble) (result flag : Byte) :
    (s.writeResultThenFlag x result flag).getV r = if r = 0xF#4 then flag else if r = x then result else s.getV r := by
  simp [State.writeResultThenFlag, regF]

/-- Flag then result: V[X] ends as the result, VF included when X = F (44_alu_8 R191). -/
theorem State.getV_writeFlagThenResult (x r : Nibble) (result flag : Byte) :
    (s.writeFlagThenResult x result flag).getV r = if r = x then result else if r = 0xF#4 then flag else s.getV r := by
  simp [State.writeFlagThenResult, regF]

end Sys2Proof.Machine
end

