-- ==== Sys2Proof/Laws/Cycle.lean ====
section
/-! SUPPORT. One lemma for each shared operation of a cycle: the stack, fault entry, the guard and the fetch. -/

namespace Sys2Proof.Machine

/-! ### The call stack -/

/-- Everything a push can do. -/
theorem State.push_eq_some {s s' : State} {a : Word} (h : s.push a = some s') :
    ∃ hs : s.sp.toNat < 12, s' = { s with stack := s.stack.set s.sp.toNat a hs, sp := s.sp + 1#4 } := by
  unfold State.push at h
  split at h
  · exact ⟨by assumption, by simpa using h.symm⟩
  · cases h

/-- A push has an answer exactly when SP names an entry. -/
theorem State.push_isSome_iff (s : State) (a : Word) : (s.push a).isSome = true ↔ s.sp.toNat < 12 := by
  unfold State.push
  split <;> simp_all

/-- Everything a pop can do. -/
theorem State.pop_eq_some {s s' : State} {t : Word} (h : s.pop = some (t, s')) :
    ∃ hs : (s.sp - 1#4).toNat < 12, t = s.stack[(s.sp - 1#4).toNat]'hs ∧ s' = { s with sp := s.sp - 1#4 } := by
  unfold State.pop at h
  split at h
  · rename_i hs
    refine ⟨hs, ?_⟩
    simp only [Option.some.injEq, Prod.mk.injEq] at h
    exact ⟨h.1.symm, h.2.symm⟩
  · cases h

/-- A pop has an answer exactly when SP - 1 names an entry. -/
theorem State.pop_isSome_iff (s : State) : s.pop.isSome = true ↔ (s.sp - 1#4).toNat < 12 := by
  unfold State.pop
  split
  · rename_i h; exact ⟨fun _ => h, fun _ => rfl⟩
  · rename_i h; exact ⟨nofun, fun e => absurd e h⟩

/-- A push where SP names an entry. -/
theorem State.push_of_lt {s : State} (a : Word) (h : s.sp.toNat < 12) :
    s.push a = some { s with stack := s.stack.set s.sp.toNat a h, sp := s.sp + 1#4 } := dif_pos h

/-- A push where SP names no entry. -/
theorem State.push_of_not_lt {s : State} (a : Word) (h : ¬ s.sp.toNat < 12) : s.push a = none := dif_neg h

/-- A pop where SP - 1 names an entry. -/
theorem State.pop_of_lt {s : State} (h : (s.sp - 1#4).toNat < 12) :
    s.pop = some (s.stack[(s.sp - 1#4).toNat]'h, { s with sp := s.sp - 1#4 }) := dif_pos h

/-- A pop where SP - 1 names no entry. -/
theorem State.pop_of_not_lt {s : State} (h : ¬ (s.sp - 1#4).toNat < 12) : s.pop = none := dif_neg h

/-- SP - 1 as a number, where the stack is not empty. -/
theorem State.sp_pred_toNat {s : State} (h : s.sp ≠ 0#4) : (s.sp - 1#4).toNat = s.sp.toNat - 1 := by
  have h0 : s.sp.toNat ≠ 0 := fun e => h (BitVec.eq_of_toNat_eq (by simpa using e))
  have := s.sp.isLt
  rw [BitVec.toNat_sub]
  simp
  omega

/-! ### Fault entry -/

/-- Fault entry answers a next state in which FAULT alone may differ. -/
theorem takeFault_eq (c : FaultCode) (s : State) : takeFault c s = .next { s with fault := c } := rfl

/-! ### Timers -/

/-- One decrement, as a number. -/
theorem countDown_toNat (t : Byte) : (countDown t).toNat = t.toNat - 1 := by
  unfold countDown
  split
  · simp_all
  · rename_i h
    have h0 : t.toNat ≠ 0 := fun e => h (BitVec.eq_of_toNat_eq (by simpa using e))
    have := t.isLt
    rw [BitVec.toNat_sub]
    simp
    omega

/-! ### The cycle before execute -/

/-- The guard writes PC and nothing else. -/
theorem State.fetchGuard_eq (s : State) : s.fetchGuard = { s with pc := s.fetchGuard.pc } := by
  unfold State.fetchGuard
  cases s.params.fetchOverrun <;> simp only
  · split <;> rfl
  · rfl

/-- The guard leaves PC where both fetch addresses are in memory. -/
theorem State.fetchGuard_pc_le (s : State) : s.fetchGuard.pc.toNat ≤ 0xFFF := by
  unfold State.fetchGuard
  cases s.params.fetchOverrun <;> simp only
  · split
    · simp
    · omega
  · simp only [State.setPc_pc, BitVec.toNat_ofNat]
    omega

/-- The tick of a cycle writes the timers and nothing else. -/
theorem State.cycleTick_eq (s : State) : s.cycleTick = { s with dt := s.cycleTick.dt, st := s.cycleTick.st } := by
  unfold State.cycleTick
  split <;> rfl

/-- What a cycle does before its fetch writes PC and the timers and nothing else. -/
theorem State.beginCycle_eq (s : State) :
    s.beginCycle = { s with pc := s.beginCycle.pc, dt := s.beginCycle.dt, st := s.beginCycle.st } := by
  unfold State.beginCycle
  rw [State.fetchGuard_eq, State.cycleTick_eq]

/-- PC at the fetch. -/
theorem State.beginCycle_pc_le (s : State) : s.beginCycle.pc.toNat ≤ 0xFFF := State.fetchGuard_pc_le _

/-- Both fetch addresses of a guarded state are in memory. -/
theorem State.fetchAddrs_lt (s : State) : s.beginCycle.fetchAddr0 < 4096 ∧ s.beginCycle.fetchAddr1 < 4096 := by
  have hp : s.cycleTick.params = s.params := by rw [State.cycleTick_eq]
  unfold State.beginCycle State.fetchAddr0 State.fetchAddr1 State.fetchGuard
  rw [hp]
  cases h : s.params.fetchOverrun <;> simp only
  · split
    · simp [hp, h]
    · simp only [hp, h]; omega
  · simp only [State.setPc_pc, State.setPc_params, hp, h, BitVec.toNat_ofNat]
    omega

/-- The fetch of a cycle always succeeds: the word of the two bytes at a0 and a1. -/
theorem State.beginCycle_fetchWord (s : State) :
    s.beginCycle.fetchWord =
      .ok (wordOfBytes (s.beginCycle.mem.byteAt s.beginCycle.fetchAddr0) (s.beginCycle.mem.byteAt s.beginCycle.fetchAddr1)) := by
  obtain ⟨h0, h1⟩ := s.fetchAddrs_lt
  simp [State.fetchWord, Memory.read_eq, h0, h1]

/-- A cycle of a core that is neither halted nor faulted, without the fetch's error branch. -/
theorem step_of_running {s : State} (h : s.ignoresCycle = false) {w : Word} (hw : s.beginCycle.fetchWord = .ok w) :
    step s = exec (decode w) (s.beginCycle.setLastWord w) := by
  simp [step, h, hw]

/-- A cycle of a halted or faulted core. -/
theorem step_of_stopped {s : State} (h : s.ignoresCycle = true) : step s = .next s := by
  simp [step, h]

/-- Everything a cycle can do: nothing, or execute the fetched word on the guarded state. -/
theorem step_cases (s : State) :
    (s.ignoresCycle = true ∧ step s = .next s) ∨
      (s.ignoresCycle = false ∧ ∃ w, s.beginCycle.fetchWord = .ok w ∧
        step s = exec (decode w) (s.beginCycle.setLastWord w)) := by
  cases h : s.ignoresCycle
  · exact .inr ⟨rfl, _, s.beginCycle_fetchWord, step_of_running h s.beginCycle_fetchWord⟩
  · exact .inl ⟨rfl, step_of_stopped h⟩

end Sys2Proof.Machine
end

