-- ==== Sys2Proof/Laws/Decode.lean ====
section
/-! SUPPORT. The fields of the three views of a word (30_encoding R111). -/

namespace Sys2Proof

/-! ### The value of a word, by its view -/

theorem toNat_append_add {m n : Nat} (x : BitVec m) (y : BitVec n) : (x ++ y).toNat = x.toNat * 2 ^ n + y.toNat := by
  rw [BitVec.toNat_append, ← Nat.shiftLeft_add_eq_or_of_lt y.isLt, Nat.shiftLeft_eq]

theorem toNat_wordOfNibbles (a b c d : Nibble) :
    (wordOfNibbles a b c d).toNat = a.toNat * 0x1000 + b.toNat * 0x100 + c.toNat * 0x10 + d.toNat := by
  change (a ++ b ++ c ++ d).toNat = _
  simp only [toNat_append_add]
  omega

theorem toNat_wordOfRegImm (a x : Nibble) (nn : Byte) :
    (wordOfRegImm a x nn).toNat = a.toNat * 0x1000 + x.toNat * 0x100 + nn.toNat := by
  change (a ++ x ++ nn).toNat = _
  simp only [toNat_append_add]
  omega

theorem toNat_wordOfAddr (a : Nibble) (nnn : Addr12) : (wordOfAddr a nnn).toNat = a.toNat * 0x1000 + nnn.toNat := by
  change (a ++ nnn).toNat = _
  simp only [toNat_append_add]
  omega

theorem toNat_wordOfBytes (hi lo : Byte) : (wordOfBytes hi lo).toNat = hi.toNat * 0x100 + lo.toNat := by
  change (hi ++ lo).toNat = _
  simp only [toNat_append_add]
  omega

/-! ### The value of a field (R111) -/

theorem toNat_nibble0 (w : Word) : (nibble0 w).toNat = w.toNat / 0x1000 := by
  have := w.isLt
  simp only [nibble0, BitVec.extractLsb'_toNat, Nat.shiftRight_eq_div_pow]
  omega

theorem toNat_regX (w : Word) : (regX w).toNat = w.toNat / 0x100 % 0x10 := by
  simp [regX, BitVec.extractLsb'_toNat, Nat.shiftRight_eq_div_pow]

theorem toNat_regY (w : Word) : (regY w).toNat = w.toNat / 0x10 % 0x10 := by
  simp [regY, BitVec.extractLsb'_toNat, Nat.shiftRight_eq_div_pow]

theorem toNat_count4 (w : Word) : (count4 w).toNat = w.toNat % 0x10 := by
  simp [count4, BitVec.extractLsb'_toNat]

theorem toNat_imm8 (w : Word) : (imm8 w).toNat = w.toNat % 0x100 := by
  simp [imm8, BitVec.extractLsb'_toNat]

theorem toNat_addr12 (w : Word) : (addr12 w).toNat = w.toNat % 0x1000 := by
  simp [addr12, BitVec.extractLsb'_toNat]

/-! ### The fields of a word built from its view -/

@[simp] theorem nibble0_wordOfNibbles (a b c d : Nibble) : nibble0 (wordOfNibbles a b c d) = a := by
  apply BitVec.eq_of_toNat_eq
  rw [toNat_nibble0, toNat_wordOfNibbles]
  omega

@[simp] theorem regX_wordOfNibbles (a b c d : Nibble) : regX (wordOfNibbles a b c d) = b := by
  apply BitVec.eq_of_toNat_eq
  rw [toNat_regX, toNat_wordOfNibbles]
  omega

@[simp] theorem regY_wordOfNibbles (a b c d : Nibble) : regY (wordOfNibbles a b c d) = c := by
  apply BitVec.eq_of_toNat_eq
  rw [toNat_regY, toNat_wordOfNibbles]
  omega

@[simp] theorem count4_wordOfNibbles (a b c d : Nibble) : count4 (wordOfNibbles a b c d) = d := by
  apply BitVec.eq_of_toNat_eq
  rw [toNat_count4, toNat_wordOfNibbles]
  omega

@[simp] theorem nibble0_wordOfRegImm (a x : Nibble) (nn : Byte) : nibble0 (wordOfRegImm a x nn) = a := by
  apply BitVec.eq_of_toNat_eq
  rw [toNat_nibble0, toNat_wordOfRegImm]
  omega

@[simp] theorem regX_wordOfRegImm (a x : Nibble) (nn : Byte) : regX (wordOfRegImm a x nn) = x := by
  apply BitVec.eq_of_toNat_eq
  rw [toNat_regX, toNat_wordOfRegImm]
  omega

@[simp] theorem imm8_wordOfRegImm (a x : Nibble) (nn : Byte) : imm8 (wordOfRegImm a x nn) = nn := by
  apply BitVec.eq_of_toNat_eq
  rw [toNat_imm8, toNat_wordOfRegImm]
  omega

@[simp] theorem nibble0_wordOfAddr (a : Nibble) (nnn : Addr12) : nibble0 (wordOfAddr a nnn) = a := by
  apply BitVec.eq_of_toNat_eq
  rw [toNat_nibble0, toNat_wordOfAddr]
  omega

@[simp] theorem addr12_wordOfAddr (a : Nibble) (nnn : Addr12) : addr12 (wordOfAddr a nnn) = nnn := by
  apply BitVec.eq_of_toNat_eq
  rw [toNat_addr12, toNat_wordOfAddr]
  omega

/-! ### Every word is its fields, in each view -/

theorem wordOfNibbles_fields (w : Word) : wordOfNibbles (nibble0 w) (regX w) (regY w) (count4 w) = w := by
  apply BitVec.eq_of_toNat_eq
  rw [toNat_wordOfNibbles, toNat_nibble0, toNat_regX, toNat_regY, toNat_count4]
  omega

theorem wordOfRegImm_fields (w : Word) : wordOfRegImm (nibble0 w) (regX w) (imm8 w) = w := by
  apply BitVec.eq_of_toNat_eq
  rw [toNat_wordOfRegImm, toNat_nibble0, toNat_regX, toNat_imm8]
  omega

theorem wordOfAddr_fields (w : Word) : wordOfAddr (nibble0 w) (addr12 w) = w := by
  apply BitVec.eq_of_toNat_eq
  rw [toNat_wordOfAddr, toNat_nibble0, toNat_addr12]
  omega

/-! ### Masks (30_encoding R116) -/

theorem wordOfNibbles_and (a b c d a' b' c' d' : Nibble) :
    wordOfNibbles a b c d &&& wordOfNibbles a' b' c' d' = wordOfNibbles (a &&& a') (b &&& b') (c &&& c') (d &&& d') := by
  change ((a ++ b ++ c ++ d) &&& (a' ++ b' ++ c' ++ d') : BitVec (4 + 4 + 4 + 4)) = _
  rw [BitVec.and_append, BitVec.and_append, BitVec.and_append]
  rfl

/-- Two words of four nibbles are equal when their nibbles are. -/
theorem wordOfNibbles_inj {a b c d a' b' c' d' : Nibble} :
    wordOfNibbles a b c d = wordOfNibbles a' b' c' d' ↔ a = a' ∧ b = b' ∧ c = c' ∧ d = d' := by
  constructor
  · intro h
    exact ⟨by simpa using congrArg nibble0 h, by simpa using congrArg regX h, by simpa using congrArg regY h,
      by simpa using congrArg count4 h⟩
  · rintro ⟨rfl, rfl, rfl, rfl⟩; rfl

theorem nibble_and_F (a : Nibble) : a &&& 0xF#4 = a := BitVec.and_allOnes

/-- The mask 0xF000 selects nibble0. -/
theorem and_F000_eq_iff (w : Word) (op : Nibble) :
    w &&& 0xF000#16 = wordOfNibbles op 0x0#4 0x0#4 0x0#4 ↔ nibble0 w = op := by
  conv_lhs =>
    rw [← wordOfNibbles_fields w, show (0xF000#16 : Word) = wordOfNibbles 0xF#4 0x0#4 0x0#4 0x0#4 from rfl,
      wordOfNibbles_and, wordOfNibbles_inj]
  simp [nibble_and_F]

/-- The mask 0xF00F selects nibble0 and nibble3. -/
theorem and_F00F_eq_iff (w : Word) (op n : Nibble) :
    w &&& 0xF00F#16 = wordOfNibbles op 0x0#4 0x0#4 n ↔ nibble0 w = op ∧ count4 w = n := by
  conv_lhs =>
    rw [← wordOfNibbles_fields w, show (0xF00F#16 : Word) = wordOfNibbles 0xF#4 0x0#4 0x0#4 0xF#4 from rfl,
      wordOfNibbles_and, wordOfNibbles_inj]
  simp [nibble_and_F]

/-- The mask 0xFFFF selects the whole word. -/
theorem and_FFFF (w : Word) : w &&& 0xFFFF#16 = w := by
  exact BitVec.and_allOnes

/-! ### The table of unrecognized words (30_encoding R118) -/

/-- The check of R118 in words: the conditions on nibble0 and, in three families, on the rest of the word. -/
theorem isUnrecognizedWord_iff (w : Word) : isUnrecognizedWord w = true ↔
    (w.toNat / 0x1000 = 0x0 ∧ w.toNat ≠ 0x0000 ∧ w.toNat ≠ 0x00E0 ∧ w.toNat ≠ 0x00EE) ∨
    ((w.toNat / 0x1000 = 0x5 ∨ w.toNat / 0x1000 = 0x9) ∧ w.toNat % 0x10 ≠ 0) ∨
    (w.toNat / 0x1000 = 0x8 ∧ 0x8 ≤ w.toNat % 0x10 ∧ w.toNat % 0x10 ≠ 0xE) ∨
    0xD ≤ w.toNat / 0x1000 := by
  have hlt : w.toNat / 0x1000 < 0x10 := by have := w.isLt; omega
  unfold isUnrecognizedWord
  generalize hn : w.toNat / 0x1000 = n at hlt ⊢
  interval_cases n <;> simp [and_assoc]

/-! ### Families: no word of a family is one of the three exact words -/

/-- A word whose nibble0 is not 0 is dispatched by its family. -/
theorem decode_of_nibble0_ne_zero {w : Word} (h : nibble0 w ≠ 0#4) : decode w = decodeFamily w := by
  have e : ∀ u : Word, nibble0 u = 0#4 → ¬ w = u := fun u hu hw => h (hw ▸ hu)
  unfold decode
  rw [if_neg (e _ (by decide)), if_neg (e _ (by decide)), if_neg (e _ (by decide))]

/-! ### Bytes -/

/-- The two bytes of a word make that word again. -/
theorem decodeBytes_bytesOfWord (w : Word) (rest : List Byte) :
    decodeBytes (bytesOfWord w ++ rest) = .ok (decode w, rest) := by
  have h : wordOfBytes (w.extractLsb' 8 8) (w.extractLsb' 0 8) = w := by
    apply BitVec.eq_of_toNat_eq
    have := w.isLt
    simp only [toNat_wordOfBytes, BitVec.extractLsb'_toNat, Nat.shiftRight_eq_div_pow]
    omega
  simp [bytesOfWord, decodeBytes, h]

/-- The opcode table's 16-bit words reach the decoder as they are. -/
theorem decodeTableWord_eq (nbits w : Nat) : decodeTableWord nbits w = some (decode (tableWord nbits w)) := by
  have h := decodeBytes_bytesOfWord (tableWord nbits w) []
  rw [List.append_nil] at h
  simp [decodeTableWord, h]

end Sys2Proof
end

