-- ==== Sys2Proof/Laws/Flags.lean ====
section
/-! SUPPORT. Operand forms and flags as numbers. -/

namespace Sys2Proof.Machine

/-- Zero extension keeps the value of an address (30_encoding R113). -/
@[simp] theorem zextAddr_toNat (nnn : Addr12) : (zextAddr nnn).toNat = nnn.toNat := by
  have := nnn.isLt
  simp [zextAddr]
  omega

/-- Zero extension keeps the value of a byte (R113). -/
@[simp] theorem zextByte_toNat (b : Byte) : (zextByte b).toNat = b.toNat := by
  have := b.isLt
  simp [zextByte]
  omega

/-- A flag is 0 or 1. -/
@[simp] theorem flagByte_toNat (c : Bool) : (flagByte c).toNat = if c then 1 else 0 := by
  cases c <;> rfl

/-- The carry, as the 9th bit of the exact sum (44_alu_8 R196). -/
theorem carryFlag_toNat (a b : Byte) : (carryFlag a b).toNat = if a.toNat + b.toNat > 255 then 1 else 0 := by
  simp [carryFlag]

/-- NOT borrow (44_alu_8 R197). -/
theorem notBorrowFlag_toNat (a b : Byte) : (notBorrowFlag a b).toNat = if a.toNat ≥ b.toNat then 1 else 0 := by
  simp [notBorrowFlag]

/-- The bit a right shift moves out is the parity (R198). -/
theorem shrOutFlag_toNat (b : Byte) : (shrOutFlag b).toNat = b.toNat % 2 := by
  simp [shrOutFlag]

/-- The bit a left shift moves out is bit 7 (R200). -/
theorem shlOutFlag_toNat (b : Byte) : (shlOutFlag b).toNat = b.toNat / 128 := by
  revert b
  decide

/-- A register reads the same wherever the register file is the same. -/
theorem State.getV_congr {s t : State} (h : t.v = s.v) (r : Nibble) : t.getV r = s.getV r := by
  simp [State.getV, h]

end Sys2Proof.Machine
end

