-- ==== Sys2Proof/Laws/PerInstr.lean ====
section
/-! SUPPORT. Statements made once for each constructor of Instr. The family OpcodeRow: the word the encoder gives an
instruction matches that instruction's row of 30_encoding R116, and the word of a well-formed unrecognized instruction matches
none of the 23 rows. -/

namespace Sys2Proof.Laws.OpcodeRow

open Sys2Proof.Safety

/-- The word of `i` and the rows of the opcode map. -/
def Statement (i : Instr) : Prop :=
  WellFormed i →
    match opcodeRow i with
    | some (mask, pattern) => encode i &&& mask = pattern
    | none => ∀ r ∈ opcodeRows, encode i &&& r.1 ≠ r.2

/-- A word with a fixed nibble0 matches its row. -/
theorem matches_F000 {w : Word} {op : Nibble} (h : nibble0 w = op) :
    w &&& 0xF000#16 = wordOfNibbles op 0x0#4 0x0#4 0x0#4 := (and_F000_eq_iff w op).2 h

/-- A word with a fixed nibble0 and nibble3 matches its row. -/
theorem matches_F00F {w : Word} {op n : Nibble} (h : nibble0 w = op) (h' : count4 w = n) :
    w &&& 0xF00F#16 = wordOfNibbles op 0x0#4 0x0#4 n := (and_F00F_eq_iff w op n).2 ⟨h, h'⟩

theorem halt : Statement .halt := fun _ => rfl
theorem cls : Statement .cls := fun _ => rfl
theorem ret : Statement .ret := fun _ => rfl
theorem jp (nnn : Addr12) : Statement (.jp nnn) := fun _ => matches_F000 (nibble0_wordOfAddr _ nnn)
theorem call (nnn : Addr12) : Statement (.call nnn) := fun _ => matches_F000 (nibble0_wordOfAddr _ nnn)
theorem seImm (x : Nibble) (nn : Byte) : Statement (.seImm x nn) := fun _ => matches_F000 (nibble0_wordOfRegImm _ x nn)
theorem sneImm (x : Nibble) (nn : Byte) : Statement (.sneImm x nn) := fun _ => matches_F000 (nibble0_wordOfRegImm _ x nn)
theorem seReg (x y : Nibble) : Statement (.seReg x y) :=
  fun _ => matches_F00F (nibble0_wordOfNibbles _ x y _) (count4_wordOfNibbles _ x y _)
theorem ldImm (x : Nibble) (nn : Byte) : Statement (.ldImm x nn) := fun _ => matches_F000 (nibble0_wordOfRegImm _ x nn)
theorem addImm (x : Nibble) (nn : Byte) : Statement (.addImm x nn) := fun _ => matches_F000 (nibble0_wordOfRegImm _ x nn)
theorem ldReg (x y : Nibble) : Statement (.ldReg x y) :=
  fun _ => matches_F00F (nibble0_wordOfNibbles _ x y _) (count4_wordOfNibbles _ x y _)
theorem orReg (x y : Nibble) : Statement (.orReg x y) :=
  fun _ => matches_F00F (nibble0_wordOfNibbles _ x y _) (count4_wordOfNibbles _ x y _)
theorem andReg (x y : Nibble) : Statement (.andReg x y) :=
  fun _ => matches_F00F (nibble0_wordOfNibbles _ x y _) (count4_wordOfNibbles _ x y _)
theorem xorReg (x y : Nibble) : Statement (.xorReg x y) :=
  fun _ => matches_F00F (nibble0_wordOfNibbles _ x y _) (count4_wordOfNibbles _ x y _)
theorem addReg (x y : Nibble) : Statement (.addReg x y) :=
  fun _ => matches_F00F (nibble0_wordOfNibbles _ x y _) (count4_wordOfNibbles _ x y _)
theorem sub (x y : Nibble) : Statement (.sub x y) :=
  fun _ => matches_F00F (nibble0_wordOfNibbles _ x y _) (count4_wordOfNibbles _ x y _)
theorem shr (x y : Nibble) : Statement (.shr x y) :=
  fun _ => matches_F00F (nibble0_wordOfNibbles _ x y _) (count4_wordOfNibbles _ x y _)
theorem subn (x y : Nibble) : Statement (.subn x y) :=
  fun _ => matches_F00F (nibble0_wordOfNibbles _ x y _) (count4_wordOfNibbles _ x y _)
theorem shl (x y : Nibble) : Statement (.shl x y) :=
  fun _ => matches_F00F (nibble0_wordOfNibbles _ x y _) (count4_wordOfNibbles _ x y _)
theorem sneReg (x y : Nibble) : Statement (.sneReg x y) :=
  fun _ => matches_F00F (nibble0_wordOfNibbles _ x y _) (count4_wordOfNibbles _ x y _)
theorem ldI (nnn : Addr12) : Statement (.ldI nnn) := fun _ => matches_F000 (nibble0_wordOfAddr _ nnn)
theorem jpV0 (nnn : Addr12) : Statement (.jpV0 nnn) := fun _ => matches_F000 (nibble0_wordOfAddr _ nnn)
theorem rnd (x : Nibble) (nn : Byte) : Statement (.rnd x nn) := fun _ => matches_F000 (nibble0_wordOfRegImm _ x nn)

/-- A family word is not one of R118's. -/
theorem listed_ne_F000 {w : Word} (hw : isUnrecognizedWord w = true) (op : Nibble)
    (hop : op.toNat ∈ [0x1, 0x2, 0x3, 0x4, 0x6, 0x7, 0xA, 0xB, 0xC]) :
    w &&& 0xF000#16 ≠ wordOfNibbles op 0x0#4 0x0#4 0x0#4 := by
  rw [Ne, and_F000_eq_iff]
  rintro rfl
  rw [toNat_nibble0] at hop
  simp only [List.mem_cons, List.not_mem_nil, or_false] at hop
  rcases hop with h | h | h | h | h | h | h | h | h <;> simp [isUnrecognizedWord, h] at hw

/-- A word of a family with a fixed nibble3 is not one of R118's. -/
theorem listed_ne_F00F {w : Word} (hw : isUnrecognizedWord w = true) (op n : Nibble)
    (hop : (op.toNat, n.toNat) ∈ [(5, 0), (9, 0), (8, 0), (8, 1), (8, 2), (8, 3), (8, 4), (8, 5), (8, 6), (8, 7), (8, 0xE)]) :
    w &&& 0xF00F#16 ≠ wordOfNibbles op 0x0#4 0x0#4 n := by
  rw [Ne, and_F00F_eq_iff]
  rintro ⟨rfl, rfl⟩
  rw [toNat_nibble0, toNat_count4] at hop
  simp only [List.mem_cons, List.not_mem_nil, or_false, Prod.mk.injEq] at hop
  rcases hop with h | h | h | h | h | h | h | h | h | h | h <;> simp [isUnrecognizedWord, h] at hw

theorem unrecognized (w : Word) : Statement (.unrecognized w) := by
  intro (hw : isUnrecognizedWord w = true) r hr
  have exact : ∀ u : Word, isUnrecognizedWord u = false → w &&& 0xFFFF#16 ≠ u := fun u hu h =>
    Bool.false_ne_true (hu.symm.trans ((and_FFFF w).symm.trans h ▸ hw))
  simp only [opcodeRows, List.mem_cons, List.not_mem_nil, or_false] at hr
  rcases hr with rfl | rfl | rfl | rfl | rfl | rfl | rfl | rfl | rfl | rfl | rfl | rfl | rfl | rfl | rfl | rfl | rfl | rfl |
    rfl | rfl | rfl | rfl | rfl
  · exact exact _ (by decide)
  · exact exact _ (by decide)
  · exact exact _ (by decide)
  · exact listed_ne_F000 hw 0x1#4 (by decide)
  · exact listed_ne_F000 hw 0x2#4 (by decide)
  · exact listed_ne_F000 hw 0x3#4 (by decide)
  · exact listed_ne_F000 hw 0x4#4 (by decide)
  · exact listed_ne_F00F hw 0x5#4 0x0#4 (by decide)
  · exact listed_ne_F000 hw 0x6#4 (by decide)
  · exact listed_ne_F000 hw 0x7#4 (by decide)
  · exact listed_ne_F00F hw 0x8#4 0x0#4 (by decide)
  · exact listed_ne_F00F hw 0x8#4 0x1#4 (by decide)
  · exact listed_ne_F00F hw 0x8#4 0x2#4 (by decide)
  · exact listed_ne_F00F hw 0x8#4 0x3#4 (by decide)
  · exact listed_ne_F00F hw 0x8#4 0x4#4 (by decide)
  · exact listed_ne_F00F hw 0x8#4 0x5#4 (by decide)
  · exact listed_ne_F00F hw 0x8#4 0x6#4 (by decide)
  · exact listed_ne_F00F hw 0x8#4 0x7#4 (by decide)
  · exact listed_ne_F00F hw 0x8#4 0xE#4 (by decide)
  · exact listed_ne_F00F hw 0x9#4 0x0#4 (by decide)
  · exact listed_ne_F000 hw 0xA#4 (by decide)
  · exact listed_ne_F000 hw 0xB#4 (by decide)
  · exact listed_ne_F000 hw 0xC#4 (by decide)

end Sys2Proof.Laws.OpcodeRow
end

