-- ==== Sys2Proof/Machine/Asm.lean ====
section
/-! DEFINITION. The assembler form of each instruction (30_encoding R121, R122; D23). Only the words are normative; these
are names. -/

namespace Sys2Proof.Machine

/-- An upper-case hexadecimal digit (R121). -/
def hexDigit (n : Nibble) : String :=
  match n.toNat with
  | 0 => "0" | 1 => "1" | 2 => "2" | 3 => "3" | 4 => "4" | 5 => "5" | 6 => "6" | 7 => "7"
  | 8 => "8" | 9 => "9" | 10 => "A" | 11 => "B" | 12 => "C" | 13 => "D" | 14 => "E" | _ => "F"

/-- A register name. -/
def regName (x : Nibble) : String := "V" ++ hexDigit x

/-- An 8-bit immediate. -/
def hexByte (b : Byte) : String := "0x" ++ hexDigit (b.extractLsb' 4 4) ++ hexDigit (b.extractLsb' 0 4)

/-- A 12-bit address. -/
def hexAddr (a : Addr12) : String :=
  "0x" ++ hexDigit (a.extractLsb' 8 4) ++ hexDigit (a.extractLsb' 4 4) ++ hexDigit (a.extractLsb' 0 4)

/-- A whole word. -/
def hexWord (w : Word) : String :=
  "0x" ++ hexDigit (nibble0 w) ++ hexDigit (regX w) ++ hexDigit (regY w) ++ hexDigit (count4 w)

/-- Two operands, destination first. -/
def twoOperands (name a b : String) : String := name ++ " " ++ a ++ ", " ++ b

/-- The assembler form (R122). -/
def asmText : Instr → String
  | .halt => "HALT"
  | .cls => "CLS"
  | .ret => "RET"
  | .jp nnn => "JP " ++ hexAddr nnn
  | .call nnn => "CALL " ++ hexAddr nnn
  | .seImm x nn => twoOperands "SE" (regName x) (hexByte nn)
  | .sneImm x nn => twoOperands "SNE" (regName x) (hexByte nn)
  | .seReg x y => twoOperands "SE" (regName x) (regName y)
  | .ldImm x nn => twoOperands "LD" (regName x) (hexByte nn)
  | .addImm x nn => twoOperands "ADD" (regName x) (hexByte nn)
  | .ldReg x y => twoOperands "LD" (regName x) (regName y)
  | .orReg x y => twoOperands "OR" (regName x) (regName y)
  | .andReg x y => twoOperands "AND" (regName x) (regName y)
  | .xorReg x y => twoOperands "XOR" (regName x) (regName y)
  | .addReg x y => twoOperands "ADD" (regName x) (regName y)
  | .sub x y => twoOperands "SUB" (regName x) (regName y)
  | .shr x y => twoOperands "SHR" (regName x) (regName y)
  | .subn x y => twoOperands "SUBN" (regName x) (regName y)
  | .shl x y => twoOperands "SHL" (regName x) (regName y)
  | .sneReg x y => twoOperands "SNE" (regName x) (regName y)
  | .ldI nnn => twoOperands "LD" "I" (hexAddr nnn)
  | .jpV0 nnn => twoOperands "JP" "V0" (hexAddr nnn)
  | .rnd x nn => twoOperands "RND" (regName x) (hexByte nn)
  | .unrecognized w => ".word " ++ hexWord w

end Sys2Proof.Machine
end

