-- ==== Sys2Proof/Tests/Slice0.lean ====
section
/-! SUPPORT. The model's own tests. Expected results are those of 95_test_vectors (the row is named), of the example of the
rule named, or worked by hand from that rule; and, at the end, a witness for the hypotheses of each statement. -/

namespace Sys2Proof.Tests

open Sys2Proof.Machine Sys2Proof.Safety

/-! ### Helpers -/

/-- The reset state with PC, SP and some registers set. -/
def start (pc : Word) (sp : BitVec 4) (regs : List (Nibble × Byte)) : State :=
  regs.foldl (fun s r => s.setV r.1 r.2) { State.reset with pc := pc, sp := sp }

/-- The reset state at 0x200 with some registers set. -/
def regs (rs : List (Nibble × Byte)) : State := start 0x200#16 0#4 rs

/-- What one cycle on a word, stored where it fetches, leaves of a piece of the state. -/
def cycleOn {α : Type} (s : State) (w : Nat) (look : State → α) : Option α :=
  match step (s.withFetchWord 16 w) with
  | .next t => some (look t)
  | .fault _ => none
  | .refused _ => none

/-- What one step of the host protocol leaves of a piece of the state. -/
def hostOn {α : Type} (s : State) (input : HostInput) (look : State → α) : Option α :=
  match hostStep input s with
  | .next t => some (look t)
  | .fault _ => none
  | .refused _ => none

/-- A state with the other value of each parameter, and P_JUMP_MIN 0x200. -/
def otherParams (s : State) : State :=
  { s with params := { fetchOverrun := .wrap, jumpMin := 0x200#12, timerOnCycle := true, add7PlusOne := true } }

/-! ### WellFormed: a term that carries a word of an instruction is refused, for each row of R116 that has one -/

theorem test_wf_refuses_exact_words :
    [0x0000#16, 0x00E0#16, 0x00EE#16].all (fun w => !(Instr.unrecognized w).wf) = true := by decide

theorem test_wf_refuses_whole_families :
    [0x1204#16, 0x2208#16, 0x332A#16, 0x432A#16, 0x6105#16, 0x7003#16, 0xA123#16, 0xB300#16, 0xC00F#16].all
      (fun w => !(Instr.unrecognized w).wf) = true := by decide

theorem test_wf_refuses_selected_words :
    [0x5010#16, 0x8010#16, 0x8011#16, 0x8012#16, 0x8013#16, 0x8014#16, 0x8015#16, 0x8016#16, 0x8017#16, 0x801E#16,
     0x9010#16].all (fun w => !(Instr.unrecognized w).wf) = true := by decide

/-- The words of R118, a boundary of each row. -/
theorem test_wf_takes_unrecognized_words :
    [0x0001#16, 0x00E1#16, 0x0FFF#16, 0x5011#16, 0x8018#16, 0x801D#16, 0x801F#16, 0x9011#16, 0xD015#16, 0xE000#16,
     0xFFFF#16].all (fun w => (Instr.unrecognized w).wf) = true := by decide

/-! ### Decode: a word of each row, its bits written out from R116 -/

theorem test_decode_halt : decode 0b0000000000000000#16 = .halt := by decide
theorem test_decode_cls : decode 0b0000000011100000#16 = .cls := by decide
theorem test_decode_ret : decode 0b0000000011101110#16 = .ret := by decide
theorem test_decode_jp : decode 0b0001001000000100#16 = .jp 0x204#12 := by decide
theorem test_decode_call : decode 0b0010001000001000#16 = .call 0x208#12 := by decide
theorem test_decode_seImm : decode 0b0011001100101010#16 = .seImm 0x3#4 0x2A#8 := by decide
theorem test_decode_sneImm : decode 0b0100001100101010#16 = .sneImm 0x3#4 0x2A#8 := by decide
theorem test_decode_seReg : decode 0b0101000100100000#16 = .seReg 0x1#4 0x2#4 := by decide
theorem test_decode_ldImm : decode 0b0110000100000101#16 = .ldImm 0x1#4 0x05#8 := by decide
theorem test_decode_addImm : decode 0b0111101000000001#16 = .addImm 0xA#4 0x01#8 := by decide
theorem test_decode_ldReg : decode 0b1000000100100000#16 = .ldReg 0x1#4 0x2#4 := by decide
theorem test_decode_orReg : decode 0b1000000100100001#16 = .orReg 0x1#4 0x2#4 := by decide
theorem test_decode_andReg : decode 0b1000000100100010#16 = .andReg 0x1#4 0x2#4 := by decide
theorem test_decode_xorReg : decode 0b1000000100100011#16 = .xorReg 0x1#4 0x2#4 := by decide
theorem test_decode_addReg : decode 0b1000000100100100#16 = .addReg 0x1#4 0x2#4 := by decide
theorem test_decode_sub : decode 0b1000001000110101#16 = .sub 0x2#4 0x3#4 := by decide
theorem test_decode_shr : decode 0b1000001100100110#16 = .shr 0x3#4 0x2#4 := by decide
theorem test_decode_subn : decode 0b1000010000010111#16 = .subn 0x4#4 0x1#4 := by decide
theorem test_decode_shl : decode 0b1000010000111110#16 = .shl 0x4#4 0x3#4 := by decide
theorem test_decode_sneReg : decode 0b1001000100100000#16 = .sneReg 0x1#4 0x2#4 := by decide
theorem test_decode_ldI : decode 0b1010000100100011#16 = .ldI 0x123#12 := by decide
theorem test_decode_jpV0 : decode 0b1011001100000000#16 = .jpV0 0x300#12 := by decide
theorem test_decode_rnd : decode 0b1100001100001111#16 = .rnd 0x3#4 0x0F#8 := by decide
theorem test_decode_unrecognized : decode 0b1110000010011110#16 = .unrecognized 0xE09E#16 := by decide

/-- The example of R110: at addresses 0x200 and 0x201 the bytes 0x12 and 0x34 are the word 0x1234 (S12). -/
theorem test_decode_bytes_big_endian :
    decodeBytes [0x12#8, 0x34#8, 0x56#8] = .ok (.jp 0x234#12, [0x56#8]) := by decide

/-- R120: an instruction takes two bytes. -/
theorem test_decode_bytes_truncated : decodeBytes [0x12#8] = .error .truncated := by decide

theorem test_decodeTableWord : decodeTableWord 16 0x8235 = some (.sub 0x2#4 0x3#4) := by decide

/-- The assembler forms of R122, on two lines of programs A and C of 95_test_vectors. -/
theorem test_asm : asmText (decode 0x8235#16) = "SUB V2, V3" ∧ asmText (decode 0x1204#16) = "JP 0x204" := by decide

/-! ### The 0x0 family (L2.1) -/

theorem test_halt : cycleOn (regs []) 0x0000 (fun t => (t.halted, t.pc)) = some (true, 0x202#16) := by decide

theorem test_cls :
    cycleOn { regs [] with fb := [(0, 0x01#8), (2047, 0xFF#8)] } 0x00E0
      (fun t => (t.fb.cell 0, t.fb.cell 2047, t.pc)) = some (0x00#8, 0x00#8, 0x202#16) := by decide

theorem test_ret :
    cycleOn { start 0x20A#16 1#4 [] with stack := State.reset.stack.set 0 0x202#16 } 0x00EE
      (fun t => (t.pc, t.sp, t.stack[0])) = some (0x202#16, 0#4, 0x202#16) := by decide

theorem test_ret_underflow :
    cycleOn (regs []) 0x00EE (fun t => (t.fault, t.pc, t.sp, t.lastWord)) =
      some (.stackUnderflow, 0x200#16, 0#4, 0x00EE#16) := by decide

/-! ### Jumps, call and skips (L2.2, L2.3) -/

theorem test_jp : cycleOn (regs []) 0x1201 (fun t => (t.pc, t.fault)) = some (0x201#16, .none) := by decide

theorem test_jp_fault :
    cycleOn (regs []) 0x1200 (fun t => (t.pc, t.fault, t.lastWord)) = some (0x200#16, .jumpTarget, 0x1200#16) := by decide

theorem test_call_last_entry :
    cycleOn (start 0x200#16 11#4 []) 0x2208 (fun t => (t.pc, t.sp, t.stack[11])) =
      some (0x208#16, 12#4, 0x202#16) := by decide

theorem test_call_overflow :
    cycleOn (start 0x200#16 12#4 []) 0x2208 (fun t => (t.fault, t.pc, t.sp)) =
      some (.stackOverflow, 0x200#16, 12#4) := by decide

theorem test_seImm : cycleOn (regs [(0x3#4, 0x2A#8)]) 0x332A (·.pc) = some 0x204#16 := by decide
theorem test_seImm_not : cycleOn (regs [(0x3#4, 0x2B#8)]) 0x332A (·.pc) = some 0x202#16 := by decide
theorem test_sneImm : cycleOn (regs [(0x3#4, 0x2B#8)]) 0x432A (·.pc) = some 0x204#16 := by decide
theorem test_sneImm_not : cycleOn (regs [(0x3#4, 0x2A#8)]) 0x432A (·.pc) = some 0x202#16 := by decide
theorem test_seReg : cycleOn (regs [(0x0#4, 0x05#8), (0x1#4, 0x05#8)]) 0x5010 (·.pc) = some 0x204#16 := by decide
theorem test_seReg_not : cycleOn (regs [(0x0#4, 0x05#8), (0x1#4, 0x06#8)]) 0x5010 (·.pc) = some 0x202#16 := by decide
theorem test_sneReg : cycleOn (regs [(0x0#4, 0x01#8), (0x1#4, 0x02#8)]) 0x9010 (·.pc) = some 0x204#16 := by decide
theorem test_sneReg_not : cycleOn (regs [(0x1#4, 0x07#8)]) 0x9110 (·.pc) = some 0x202#16 := by decide

/-! ### Immediates (L2.4) -/

theorem test_ldImm :
    cycleOn (regs [(0xF#4, 0x01#8)]) 0x6FAA (fun t => (t.getV 0xF#4, t.pc)) = some (0xAA#8, 0x202#16) := by decide

theorem test_addImm :
    cycleOn (regs [(0x0#4, 0xFF#8), (0xF#4, 0x55#8)]) 0x7001 (fun t => (t.getV 0x0#4, t.getV 0xF#4)) =
      some (0x00#8, 0x55#8) := by decide

theorem test_addImm_plus_one :
    cycleOn (otherParams (regs [(0x0#4, 0x03#8)])) 0x7003 (·.getV 0x0#4) = some 0x04#8 := by decide

/-! ### The ALU (L2.5): the flag, and the order of the writes where X or Y is F -/

theorem test_ldReg : cycleOn (regs [(0x1#4, 0x7F#8)]) 0x8010 (·.getV 0x0#4) = some 0x7F#8 := by decide

theorem test_or :
    cycleOn (regs [(0x0#4, 0xF0#8), (0x1#4, 0x0F#8), (0xF#4, 0x55#8)]) 0x8011 (fun t => (t.getV 0x0#4, t.getV 0xF#4)) =
      some (0xFF#8, 0x55#8) := by decide

theorem test_and :
    cycleOn (regs [(0x0#4, 0xF0#8), (0x1#4, 0x3C#8), (0xF#4, 0x55#8)]) 0x8012 (fun t => (t.getV 0x0#4, t.getV 0xF#4)) =
      some (0x30#8, 0x55#8) := by decide

theorem test_xor :
    cycleOn (regs [(0x0#4, 0xFF#8), (0x1#4, 0x0F#8), (0xF#4, 0x55#8)]) 0x8013 (fun t => (t.getV 0x0#4, t.getV 0xF#4)) =
      some (0xF0#8, 0x55#8) := by decide

theorem test_addReg_carry :
    cycleOn (regs [(0x0#4, 0xFF#8), (0x1#4, 0xFF#8)]) 0x8014 (fun t => (t.getV 0x0#4, t.getV 0xF#4, t.pc)) =
      some (0xFE#8, 0x01#8, 0x202#16) := by decide

theorem test_addReg_flag_wins : cycleOn (regs [(0x0#4, 0x80#8), (0xF#4, 0x80#8)]) 0x8F04 (·.getV 0xF#4) = some 0x01#8 := by
  decide

theorem test_sub_borrow :
    cycleOn (regs [(0x0#4, 0x02#8), (0x1#4, 0x05#8)]) 0x8015 (fun t => (t.getV 0x0#4, t.getV 0xF#4)) =
      some (0xFD#8, 0x00#8) := by decide

theorem test_sub_equal :
    cycleOn (regs [(0x0#4, 0x07#8), (0x1#4, 0x07#8)]) 0x8015 (fun t => (t.getV 0x0#4, t.getV 0xF#4)) =
      some (0x00#8, 0x01#8) := by decide

theorem test_shr_latches_vf :
    cycleOn (regs [(0xF#4, 0x03#8)]) 0x80F6 (fun t => (t.getV 0x0#4, t.getV 0xF#4)) = some (0x01#8, 0x01#8) := by decide

theorem test_shr_result_wins : cycleOn (regs [(0x0#4, 0x05#8)]) 0x8F06 (·.getV 0xF#4) = some 0x02#8 := by decide

theorem test_subn_borrow :
    cycleOn (regs [(0x0#4, 0x05#8), (0x1#4, 0x03#8)]) 0x8017 (fun t => (t.getV 0x0#4, t.getV 0xF#4)) =
      some (0xFE#8, 0x00#8) := by decide

theorem test_subn_flag_wins : cycleOn (regs [(0xF#4, 0x03#8), (0x0#4, 0x05#8)]) 0x8F07 (·.getV 0xF#4) = some 0x01#8 := by
  decide

theorem test_shl :
    cycleOn (regs [(0x1#4, 0x81#8)]) 0x801E (fun t => (t.getV 0x0#4, t.getV 0xF#4)) = some (0x02#8, 0x01#8) := by decide

theorem test_shl_result_wins : cycleOn (regs [(0x0#4, 0x81#8)]) 0x8F0E (·.getV 0xF#4) = some 0x02#8 := by decide

/-! ### ANNN, BNNN, CXNN and unrecognized words (L2.6, L2.7) -/

theorem test_ldI : cycleOn (regs []) 0xA123 (fun t => (t.iReg, t.pc)) = some (0x123#16, 0x202#16) := by decide
theorem test_jpV0 : cycleOn (regs [(0x0#4, 0xFF#8)]) 0xBFFF (·.pc) = some 0x10FE#16 := by decide
theorem test_jpV0_unchecked : cycleOn (regs [(0x0#4, 0x01#8)]) 0xB1FE (·.pc) = some 0x1FF#16 := by decide

/-- R214, with the free byte of log entry 2 in place of the row's RND. -/
theorem test_rnd :
    cycleOn (regs []) 0xC00F (fun t => (t.getV 0x0#4, t.rndDraws)) = some (Config.rnd 0 &&& 0x0F#8, 1) := rfl

theorem test_rnd_zero_mask : cycleOn (regs [(0x0#4, 0x77#8)]) 0xC000 (·.getV 0x0#4) = some 0x00#8 :=
  show some (Config.rnd 0 &&& 0x00#8) = _ by rw [BitVec.and_zero]

theorem test_unrecognized :
    cycleOn (start 0x20A#16 0#4 []) 0xE09E (fun t => (t.pc, t.events, t.halted, t.fault)) =
      some (0x20C#16, [⟨0xE09E#16, 0x20A#16⟩], false, .none) := by decide

theorem test_unrecognized_does_not_skip :
    cycleOn (regs [(0x0#4, 0x05#8), (0x1#4, 0x05#8)]) 0x5011 (fun t => (t.pc, t.events)) =
      some (0x202#16, [⟨0x5011#16, 0x200#16⟩]) := by decide

/-! ### The cycle (L2.8) -/

/-- A state whose memory holds 60 01 at 0x200. -/
def withLd (pc : Word) : State := { State.reset with pc := pc, mem := [(0x200, 0x60#8), (0x201, 0x01#8)] }

theorem test_overrun_reset :
    (match step (withLd 0xFFF#16) with
     | .next t => some (t.getV 0x0#4, t.pc, t.lastWord)
     | _ => none) = some (0x01#8, 0x202#16, 0x6001#16) := by decide

theorem test_overrun_wrap :
    (match step (otherParams { State.reset with pc := 0xFFF#16, mem := [(0x000, 0x05#8), (0xFFF, 0x61#8)] }) with
     | .next t => some (t.getV 0x1#4, t.pc)
     | _ => none) = some (0x05#8, 0x1001#16) := by decide

theorem test_last_pair_is_no_overrun : cycleOn (start 0xFFE#16 0#4 []) 0x7001 (·.pc) = some 0x1000#16 := by decide

theorem test_fault_keeps_guard_write :
    (match step { State.reset with pc := 0x1000#16, mem := [(0x200, 0x12#8)] } with
     | .next t => some (t.pc, t.fault)
     | _ => none) = some (0x200#16, .jumpTarget) := by decide

theorem test_halted_cycle_changes_nothing :
    step { State.reset with halted := true, pc := 0x202#16 } =
      .next { State.reset with halted := true, pc := 0x202#16 } := rfl

/-! ### Timers, reset and load (L2.9, L2.10) -/

theorem test_tick :
    hostOn { State.reset with dt := 0x03#8 } ⟨false, true, none⟩ (fun t => (t.dt, t.st)) = some (0x02#8, 0x00#8) := by decide

theorem test_tick_with_cycle :
    hostOn ((otherParams { State.reset with dt := 0x05#8 }).withFetchWord 16 0x6000) ⟨false, true, some .cycle⟩ (·.dt) =
      some 0x03#8 := by decide

theorem test_load :
    hostOn { regs [(0x0#4, 0x07#8)] with halted := true, pc := 0x20C#16 }
      ⟨false, false, some (.load [0x60#8, 0x00#8, 0x61#8])⟩
      (fun t => (t.mem, t.pc, t.getV 0x0#4, t.halted)) =
      some ([(0x200, 0x60#8), (0x202, 0x61#8)], 0x200#16, 0x07#8, true) := by decide

theorem test_reset_leaves_a_fault :
    hostOn { regs [(0x0#4, 0x07#8)] with fault := .jumpTarget } ⟨true, true, some .cycle⟩ (fun t => (t.fault, t.getV 0x0#4)) =
      some (.none, 0x00#8) := by decide

/-- R39 with FB_W = 64: column 3 of row 2 is cell 131. -/
theorem test_pixel : ({ State.reset with fb := [(131, 0x01#8)] } : State).pixelOn 3#6 2#5 = true := rfl

/-! ### Witnesses: states and operands that meet the hypotheses of a statement, at the bounds of each clause -/

theorem test_witness_DecodeOfEncode : WellFormed (.unrecognized 0xE000#16) ∧ WellFormed (.jp 0x204#12) := by decide

theorem test_witness_OpcodeMap :
    (0xF00F#16, 0x8004#16) ∈ opcodeRows ∧ 0x8014#16 &&& 0xF00F#16 = 0x8004#16 ∧
      ∀ r ∈ opcodeRows, 0xE000#16 &&& r.1 ≠ r.2 :=
  ⟨by decide, by decide, by simp [opcodeRows]⟩

/-- SP = 1, 12 and 0 for the clauses of RET. -/
theorem test_witness_Return :
    (1 ≤ (start 0x200#16 1#4 []).sp.toNat ∧ (start 0x200#16 1#4 []).sp.toNat ≤ 12) ∧
      (1 ≤ (start 0x200#16 12#4 []).sp.toNat ∧ (start 0x200#16 12#4 []).sp.toNat ≤ 12) ∧ State.reset.sp.toNat = 0 := by
  decide

/-- The targets 0x201 and 0xFFF for the first clause of JP, 0x200 and 0x000 for the second. -/
theorem test_witness_Jump :
    (State.reset.params.jumpMin.toNat ≤ (0x201#12).toNat ∧ State.reset.params.jumpMin.toNat ≤ (0xFFF#12).toNat) ∧
      (0x200#12).toNat < State.reset.params.jumpMin.toNat ∧ (0x000#12).toNat < State.reset.params.jumpMin.toNat := by
  decide

/-- SP = 0 and 11 for the first clause of CALL and for a CALL with its RET, 12 for the second clause of CALL. -/
theorem test_witness_Call :
    State.reset.sp.toNat < 12 ∧ (start 0x200#16 11#4 []).sp.toNat < 12 ∧ (start 0x200#16 12#4 []).sp.toNat = 12 ∧
      1 ≠ State.reset.sp.toNat := by decide

theorem test_witness_StopBeyondStack :
    12 < (start 0x200#16 13#4 []).sp.toNat ∧ 12 < (start 0x200#16 15#4 []).sp.toNat := by decide

/-- The inner hypotheses of the ALU statements, and of RND: a destination that is F and one that is not, a third register,
a clear bit of NN, and NN = 0. -/
theorem test_witness_Registers :
    (0x0#4 : Nibble) ≠ 0xF#4 ∧ (0x1#4 : Nibble) ≠ 0x0#4 ∧ (0x1#4 : Nibble) ≠ 0xF#4 ∧
      (0x0F#8 : Byte).getLsbD 4 = false ∧ (0x00#8 : Byte) = 0x00#8 := by decide

/-- A word at each end of each of the four families. -/
theorem test_witness_OtherWords :
    ((0x0001#16).toNat < 0x1000 ∧ 0x0001#16 ≠ 0x0000#16 ∧ 0x0001#16 ≠ 0x00E0#16 ∧ 0x0001#16 ≠ 0x00EE#16) ∧
      (0x0FFF#16).toNat < 0x1000 ∧
      ((0x5001#16).toNat / 0x1000 = 0x5 ∧ (0x5001#16).toNat % 0x10 ≠ 0) ∧
      ((0x8008#16).toNat / 0x1000 = 0x8 ∧ (0x8008#16).toNat % 0x10 ∈ [0x8, 0x9, 0xA, 0xB, 0xC, 0xD, 0xF]) ∧
      ((0x8FFF#16).toNat / 0x1000 = 0x8 ∧ (0x8FFF#16).toNat % 0x10 ∈ [0x8, 0x9, 0xA, 0xB, 0xC, 0xD, 0xF]) ∧
      ((0x9FFF#16).toNat / 0x1000 = 0x9 ∧ (0x9FFF#16).toNat % 0x10 ≠ 0) := by decide

/-- A running core whose next word is 6105. -/
def loadsV1 : State := State.reset.withFetchWord 16 0x6105

/-- A running core whose next word is 1200, which faults. -/
def jumpsLow : State := State.reset.withFetchWord 16 0x1200

/-- A halted core, and a faulted one. -/
def haltedCore : State := { State.reset with halted := true }
def faultedCore : State := { State.reset with fault := .stackOverflow }

theorem test_witness_NotRunning : ¬ Running haltedCore ∧ ¬ Running faultedCore := by
  exact ⟨fun h => Bool.noConfusion h.1, fun h => FaultCode.noConfusion h.2⟩

/-- The cycle statements: a running core, what the guard leaves, the word, and a next state. -/
theorem test_witness_Cycle :
    Running loadsV1 ∧ (if loadsV1.params.timerOnCycle then loadsV1.tick else loadsV1).fetchGuard = loadsV1 ∧
      fetchedWord loadsV1 = 0x6105#16 ∧ faultOf loadsV1.beginCycle (decode (fetchedWord loadsV1)) = none ∧
      ∃ t, step loadsV1 = .next t ∧ t.fault = .none :=
  ⟨⟨rfl, rfl⟩, rfl, rfl, rfl, _, rfl, rfl⟩

/-- The same with P_TIMER_ON_CYCLE, for the clauses that tick. -/
theorem test_witness_TimedCycle :
    Running (otherParams loadsV1) ∧ (otherParams loadsV1).params.timerOnCycle = true ∧
      (∃ t, hostStep ⟨false, false, some .cycle⟩ (otherParams loadsV1) = .next t) ∧
      ∃ t, hostStep ⟨false, true, some .cycle⟩ (otherParams loadsV1) = .next t :=
  ⟨⟨rfl, rfl⟩, rfl, ⟨_, rfl⟩, _, rfl⟩

/-- A cycle that faults, with its code. -/
theorem test_witness_FaultingCycle :
    Running jumpsLow ∧ faultOf jumpsLow.beginCycle (decode (fetchedWord jumpsLow)) = some .jumpTarget ∧
      ∃ t, step jumpsLow = .next t ∧ t.fault ≠ .none :=
  ⟨⟨rfl, rfl⟩, rfl, _, rfl, by decide⟩

/-- The other two codes. -/
theorem test_witness_StackFaults :
    faultOf (start 0x200#16 12#4 []) (.call 0x208#12) = some .stackOverflow ∧
      faultOf State.reset .ret = some .stackUnderflow := by decide

/-- A halting cycle, for the end of a run. -/
theorem test_witness_HaltingCycle :
    Running State.reset ∧ fetchedWord State.reset = 0x0000#16 ∧ ∃ t, step State.reset = .next t ∧ runEnd t = .ended :=
  ⟨⟨rfl, rfl⟩, rfl, _, rfl, rfl⟩

/-- The two values of P_FETCH_OVERRUN, at the PC where RESET's two cases meet. -/
theorem test_witness_FetchGuard :
    (start 0xFFE#16 0#4 []).params.fetchOverrun = .reset ∧ ¬ (start 0xFFE#16 0#4 []).pc.toNat > 0xFFE ∧
      (start 0xFFF#16 0#4 []).pc.toNat > 0xFFE ∧ (otherParams State.reset).params.fetchOverrun = .wrap := by decide

/-- exec answers a next state, for each class of PC and for a fault. -/
theorem test_witness_Exec :
    (∃ t, exec (.ldImm 0x1#4 0x05#8) State.reset = .next t) ∧ (∃ t, exec (.seImm 0x0#4 0x00#8) State.reset = .next t) ∧
      (∃ t, exec (.jp 0x204#12) State.reset = .next t ∧ faultOf State.reset (.jp 0x204#12) = none) ∧
      (∃ t, exec .ret (start 0x20A#16 1#4 []) = .next t ∧ faultOf (start 0x20A#16 1#4 []) .ret = none) ∧
      ∃ t, exec .ret State.reset = .next t ∧ faultOf State.reset .ret ≠ none :=
  ⟨⟨_, rfl⟩, ⟨_, rfl⟩, ⟨_, rfl, rfl⟩, ⟨_, rfl, rfl⟩, _, rfl, by decide⟩

/-- A register file that differs only in V[2], which ADD V0, V1 does not read. -/
theorem test_witness_ReadOnly :
    (∀ r ∈ regsRead (.addReg 0x0#4 0x1#4),
        ({ State.reset with v := State.reset.v.set 2 0x07#8 } : State).getV r = State.reset.getV r) ∧
      ∃ t, exec (.addReg 0x0#4 0x1#4) State.reset = .next t :=
  ⟨by decide, _, rfl⟩

theorem test_witness_NotLdI : ∀ nnn, Instr.cls ≠ .ldI nnn := by intro nnn h; cases h

/-- A step that leaves zero timers zero, and one without a tick from timers that are not zero. -/
theorem test_witness_Timers :
    TimersZero State.reset ∧ (∃ t, hostStep ⟨false, true, some .cycle⟩ State.reset = .next t) ∧
      ({ loadsV1 with dt := 0x05#8 } : State).params.timerOnCycle = false ∧
      (some (Request.load []) ≠ some Request.cycle) ∧
      ∃ t, hostStep ⟨false, false, some .cycle⟩ { loadsV1 with dt := 0x05#8 } = .next t :=
  ⟨⟨rfl, rfl⟩, ⟨_, rfl⟩, rfl, by decide, _, rfl⟩

/-- A state the invariant holds in, and its cycle; SP = 12 is allowed. -/
theorem test_witness_Invariant : Inv { State.reset with sp := 12#4 } ∧ ∃ t, step { State.reset with sp := 12#4 } = .next t :=
  ⟨⟨rfl, fun _ _ => rfl, rfl, fun _ => rfl, by decide, by decide, by decide,
    fun k h => by simp [State.reset], fun h => Bool.noConfusion h⟩, _, rfl⟩

/-- A state the host-step statement speaks of: the invariant and zero timers, with parameters that are not the defaults. -/
theorem test_witness_HostInvariant : Inv (otherParams State.reset) ∧ TimersZero (otherParams State.reset) :=
  ⟨⟨rfl, fun _ _ => rfl, rfl, fun _ => rfl, by decide, by decide, by decide,
    fun k h => by simp [otherParams, State.reset], fun h => Bool.noConfusion h⟩, rfl, rfl⟩

theorem test_witness_SpRange : (start 0x200#16 12#4 []).sp.toNat ≤ 12 := by decide

/-- The inputs of the two clauses on halted and faulted cores. -/
theorem test_witness_HostInputs :
    (⟨false, true, some .cycle⟩ : HostInput).rst = false ∧ (⟨true, false, none⟩ : HostInput).rst = true := by decide

theorem test_witness_Reset : haltedCore.resetCore = State.reset := by decide

/-- Images of 0, 3 and 3584 bytes for the first clause of the load, 3585 for the second. -/
theorem test_witness_Load :
    ([] : List Byte).length ≤ 3584 ∧ [0x60#8, 0x00#8, 0x61#8].length ≤ 3584 ∧
      (List.replicate 3584 (0x01#8 : Byte)).length ≤ 3584 ∧ 3584 < (List.replicate 3585 (0x01#8 : Byte)).length := by
  simp only [List.length_replicate]; decide

/-- A listed memory in canonical form, and an address away from the two bytes placed. -/
theorem test_witness_Placed :
    (withLd 0x200#16).mem.wf = true ∧ 0x202 ≠ (withLd 0x200#16).fetchGuard.fetchAddr0 ∧
      0x202 ≠ (withLd 0x200#16).fetchGuard.fetchAddr1 := by decide

end Sys2Proof.Tests
end

section
/-! What the load writes below the program area. -/

namespace Sys2Proof.Machine

/-- A write leaves every other byte, at an address MEM does not have too. -/
theorem Memory.byteAt_write_of_ne {m : Memory} (h : m.wf = true) {a q : Nat} (hq : q ≠ a) (b : Byte) :
    (m.write a b).byteAt q = m.byteAt q := by
  by_cases ha : a < 4096
  · rw [Memory.byteAt_write h ha, if_neg hq]
  · rw [Memory.write, if_neg ha]

/-- Writing a run of bytes leaves every byte below it. -/
theorem Memory.byteAt_writeBytes_below {m : Memory} (h : m.wf = true) {a q : Nat} (hq : q < a) (image : List Byte) :
    (m.writeBytes a image).byteAt q = m.byteAt q := by
  induction image generalizing m a with
  | nil => rfl
  | cons b rest ih =>
    calc (m.writeBytes a (b :: rest)).byteAt q
        = (m.write a b).byteAt q := ih (Memory.write_wf h a b) (by omega)
      _ = m.byteAt q := Memory.byteAt_write_of_ne h (by omega) b

end Sys2Proof.Machine
end

section
/-! Reasoning rules of execute, shared by the proofs about all instructions at once: what `exec` answers for each instruction,
with the case split of JP, CALL and RET made by hypotheses on the state, and partial correctness over outcomes. -/

namespace Sys2Proof.Machine

/-! ### Partial correctness -/

/-- If the outcome is a next state, that state satisfies `P`. -/
def IfNext (P : State → Prop) : Result → Prop
  | .next t => P t
  | .fault _ => True
  | .refused _ => True

theorem IfNext.of_eq {P : State → Prop} {r : Result} (h : IfNext P r) {t : State} (ht : r = .next t) : P t := by
  subst ht
  exact h

theorem IfNext.imp {P Q : State → Prop} {r : Result} (h : IfNext P r) (hPQ : ∀ t, P t → Q t) : IfNext Q r := by
  cases r with
  | next t => exact hPQ t h
  | fault | refused => trivial

/-! ### What each instruction answers (40_cycle R146) -/

variable (s : State) (x y : Nibble) (nn : Byte) (nnn : Addr12)

@[simp] theorem exec_halt : exec .halt s = .next s.setHalted.advance := rfl
@[simp] theorem exec_cls : exec .cls s = .next s.clearFb.advance := rfl
@[simp] theorem exec_seImm : exec (.seImm x nn) s = .next (s.skipIf (s.getV x == nn)) := rfl
@[simp] theorem exec_sneImm : exec (.sneImm x nn) s = .next (s.skipIf (s.getV x != nn)) := rfl
@[simp] theorem exec_seReg : exec (.seReg x y) s = .next (s.skipIf (s.getV x == s.getV y)) := rfl
@[simp] theorem exec_sneReg : exec (.sneReg x y) s = .next (s.skipIf (s.getV x != s.getV y)) := rfl
@[simp] theorem exec_ldImm : exec (.ldImm x nn) s = .next (s.setV x nn).advance := rfl
@[simp] theorem exec_addImm : exec (.addImm x nn) s = .next (s.setV x (s.getV x + s.addend7 nn)).advance := rfl
@[simp] theorem exec_ldReg : exec (.ldReg x y) s = .next (s.setV x (s.getV y)).advance := rfl
@[simp] theorem exec_orReg : exec (.orReg x y) s = .next (s.setV x (s.getV x ||| s.getV y)).advance := rfl
@[simp] theorem exec_andReg : exec (.andReg x y) s = .next (s.setV x (s.getV x &&& s.getV y)).advance := rfl
@[simp] theorem exec_xorReg : exec (.xorReg x y) s = .next (s.setV x (s.getV x ^^^ s.getV y)).advance := rfl
@[simp] theorem exec_addReg : exec (.addReg x y) s =
    .next (s.writeResultThenFlag x (s.getV x + s.getV y) (carryFlag (s.getV x) (s.getV y))).advance := rfl
@[simp] theorem exec_sub : exec (.sub x y) s =
    .next (s.writeResultThenFlag x (s.getV x - s.getV y) (notBorrowFlag (s.getV x) (s.getV y))).advance := rfl
@[simp] theorem exec_subn : exec (.subn x y) s =
    .next (s.writeResultThenFlag x (s.getV y - s.getV x) (notBorrowFlag (s.getV y) (s.getV x))).advance := rfl
@[simp] theorem exec_shr : exec (.shr x y) s =
    .next (s.writeFlagThenResult x (s.getV y >>> 1) (shrOutFlag (s.getV y))).advance := rfl
@[simp] theorem exec_shl : exec (.shl x y) s =
    .next (s.writeFlagThenResult x (s.getV y <<< 1) (shlOutFlag (s.getV y))).advance := rfl
@[simp] theorem exec_ldI : exec (.ldI nnn) s = .next (s.setI (zextAddr nnn)).advance := rfl
@[simp] theorem exec_jpV0 : exec (.jpV0 nnn) s = .next (s.setPc (s.jumpV0Target nnn)) := rfl
@[simp] theorem exec_rnd : exec (.rnd x nn) s =
    .next (s.drawRnd.2.setV x (Config.rnd s.rndDraws &&& nn)).advance := rfl
@[simp] theorem exec_unrecognized (w : Word) : exec (.unrecognized w) s = .next (s.emitUnrecognized w).advance := rfl

@[simp] theorem State.drawRnd_getV (q : Nibble) : s.drawRnd.2.getV q = s.getV q := rfl

variable {s nnn}

/-- JP to a target below P_JUMP_MIN (60_exceptions R235). -/
theorem exec_jp_of_low (h : nnn < s.params.jumpMin) : exec (.jp nnn) s = .next (s.setFault .jumpTarget) := if_pos h

/-- JP to a target it accepts (42_flow_1_to_5 R170). -/
theorem exec_jp_of_not_low (h : ¬ nnn < s.params.jumpMin) : exec (.jp nnn) s = .next (s.setPc (zextAddr nnn)) := if_neg h

/-- CALL with a full stack (60_exceptions R233). -/
theorem exec_call_of_full (h : s.sp.toNat = 12) : exec (.call nnn) s = .next (s.setFault .stackOverflow) :=
  if_pos (BitVec.eq_of_toNat_eq h)

/-- CALL with room on the stack (42_flow_1_to_5 R171). -/
theorem exec_call_of_room (h : s.sp.toNat < 12) : exec (.call nnn) s =
    .next { s with stack := s.stack.set s.sp.toNat (s.pc + 2#16) h, sp := s.sp + 1#4, pc := zextAddr nnn } := by
  have h12 : s.sp ≠ 12#4 := fun e => absurd h (by simp [e])
  simp [exec, execCall, h12, State.push_of_lt _ h, State.setPc, State.nextPc, pcStep]

/-- CALL where SP names no stack entry (log entry 5). -/
theorem exec_call_of_beyond (h : 12 < s.sp.toNat) : exec (.call nnn) s = .fault (.stackIndexOutOfRange s.sp) := by
  have h12 : s.sp ≠ 12#4 := fun e => absurd h (by simp [e])
  have hlt : ¬ s.sp.toNat < 12 := by omega
  simp [exec, execCall, h12, State.push_of_not_lt _ hlt, stopBeyondStack]

/-- RET with an empty stack (60_exceptions R234). -/
theorem exec_ret_of_empty (h : s.sp = 0#4) : exec .ret s = .next (s.setFault .stackUnderflow) := if_pos h

/-- RET with a return address on the stack (41_system_0x0 R162). -/
theorem exec_ret_of_held (h0 : s.sp ≠ 0#4) (h : s.sp.toNat ≤ 12) : exec .ret s =
    .next { s with sp := s.sp - 1#4, pc := s.stack[s.sp.toNat - 1]'(by omega) } := by
  have hp := State.sp_pred_toNat h0
  have hlt : (s.sp - 1#4).toNat < 12 := by omega
  simp [exec, execRet, h0, State.pop_of_lt hlt, State.setPc, hp]

/-- RET where SP - 1 names no stack entry (log entry 5). -/
theorem exec_ret_of_beyond (h : 12 < s.sp.toNat) : exec .ret s = .fault (.stackIndexOutOfRange s.sp) := by
  have h0 : s.sp ≠ 0#4 := fun e => absurd h (by simp [e])
  have hp := State.sp_pred_toNat h0
  have hlt : ¬ (s.sp - 1#4).toNat < 12 := by omega
  simp [exec, execRet, h0, State.pop_of_not_lt hlt, stopBeyondStack]

/-- JP is its two cases. -/
theorem exec_jp_ifNext {P : State → Prop} (hlow : nnn < s.params.jumpMin → P (s.setFault .jumpTarget))
    (hjump : ¬ nnn < s.params.jumpMin → P (s.setPc (zextAddr nnn))) : IfNext P (exec (.jp nnn) s) := by
  by_cases h : nnn < s.params.jumpMin
  · rw [exec_jp_of_low h]
    exact hlow h
  · rw [exec_jp_of_not_low h]
    exact hjump h

/-- CALL is the two cases that answer a next state. -/
theorem exec_call_ifNext {P : State → Prop} (hfull : s.sp.toNat = 12 → P (s.setFault .stackOverflow))
    (hroom : ∀ h : s.sp.toNat < 12,
      P { s with stack := s.stack.set s.sp.toNat (s.pc + 2#16) h, sp := s.sp + 1#4, pc := zextAddr nnn }) :
    IfNext P (exec (.call nnn) s) := by
  rcases lt_trichotomy s.sp.toNat 12 with h | h | h
  · rw [exec_call_of_room h]
    exact hroom h
  · rw [exec_call_of_full h]
    exact hfull h
  · rw [exec_call_of_beyond h]
    trivial

/-- RET is the two cases that answer a next state. -/
theorem exec_ret_ifNext {P : State → Prop} (hempty : s.sp = 0#4 → P (s.setFault .stackUnderflow))
    (hheld : ∀ (_ : s.sp ≠ 0#4) (h : s.sp.toNat ≤ 12),
      P { s with sp := s.sp - 1#4, pc := s.stack[s.sp.toNat - 1]'(by omega) }) :
    IfNext P (exec .ret s) := by
  by_cases h0 : s.sp = 0#4
  · rw [exec_ret_of_empty h0]
    exact hempty h0
  · rcases Nat.lt_or_ge 12 s.sp.toNat with h | h
    · rw [exec_ret_of_beyond h]
      trivial
    · rw [exec_ret_of_held h0 h]
      exact hheld h0 h

/-- With SP in 0..12 every instruction answers a next state. -/
theorem exec_answers (i : Instr) (h : s.sp.toNat ≤ 12) : ∃ t, exec i s = .next t := by
  cases i with
  | jp nnn =>
    by_cases hlow : nnn < s.params.jumpMin
    · exact ⟨_, exec_jp_of_low hlow⟩
    · exact ⟨_, exec_jp_of_not_low hlow⟩
  | call nnn =>
    rcases h.lt_or_eq with hlt | heq
    · exact ⟨_, exec_call_of_room hlt⟩
    · exact ⟨_, exec_call_of_full heq⟩
  | ret =>
    by_cases h0 : s.sp = 0#4
    · exact ⟨_, exec_ret_of_empty h0⟩
    · exact ⟨_, exec_ret_of_held h0 h⟩
  | _ => exact ⟨_, rfl⟩

/-! ### What a cycle answers -/

/-- What is before the execute of a cycle leaves SP. -/
theorem State.beginCycle_sp (s : State) : s.beginCycle.sp = s.sp := by rw [State.beginCycle_eq]

/-- With SP in 0..12 every cycle answers a next state. -/
theorem step_answers (h : s.sp.toNat ≤ 12) : ∃ t, step s = .next t := by
  rcases step_cases s with ⟨-, hs⟩ | ⟨-, w, -, hs⟩
  · exact ⟨s, hs⟩
  · rw [hs]
    exact exec_answers _ (by simpa [State.beginCycle_sp] using h)

end Sys2Proof.Machine
end

section
/-! Running cores, and what one step of the host protocol answers. -/

namespace Sys2Proof.Safety

open Sys2Proof.Machine

/-! ### Running and stopped cores -/

/-- The cycle guard lets a running core through, and no other (40_cycle R141). -/
theorem ignoresCycle_eq_false_iff {s : State} : s.ignoresCycle = false ↔ Running s := by
  simp [State.ignoresCycle, Running]

theorem step_of_not_running {s : State} (h : ¬ Running s) : step s = .next s :=
  step_of_stopped (by rwa [← ignoresCycle_eq_false_iff, Bool.not_eq_false] at h)

/-- What is before the execute of a cycle stops no core. -/
theorem Running.beginCycle {s : State} (h : Running s) : Running s.beginCycle := by
  rw [State.beginCycle_eq]
  exact h

end Sys2Proof.Safety

namespace Sys2Proof.Machine

/-! ### The host protocol -/

/-- The tick of a step that presents TICK when `c` (60_exceptions R244). -/
def State.tickWhen (s : State) (c : Bool) : State := if c then s.tick else s

theorem hostStep_of_rst {input : HostInput} (h : input.rst = true) (s : State) :
    hostStep input s = .next s.resetCore := if_pos h

/-- Everything a step of the host protocol can do: reset; or the tick it presents, then nothing, the load or the cycle. -/
theorem hostStep_cases (input : HostInput) (s : State) :
    (input.rst = true ∧ hostStep input s = .next s.resetCore) ∨
      (input.rst = false ∧ input.request = none ∧ hostStep input s = .next (s.tickWhen input.tick)) ∨
      (∃ image, input.rst = false ∧ input.request = some (.load image) ∧
        hostStep input s = .next ((s.tickWhen input.tick).load image)) ∨
      (input.rst = false ∧ input.request = some .cycle ∧ hostStep input s = step (s.tickWhen input.tick)) := by
  rcases input with ⟨_ | _, tick, _ | image | _⟩
  · exact .inr (.inl ⟨rfl, rfl, rfl⟩)
  · exact .inr (.inr (.inl ⟨image, rfl, rfl, rfl⟩))
  · exact .inr (.inr (.inr ⟨rfl, rfl, rfl⟩))
  all_goals exact .inl ⟨rfl, rfl⟩

end Sys2Proof.Machine
end

section
/-! The frame rules: what each named operation leaves unchanged, then the frame of every instruction. -/

namespace Sys2Proof.Safety

open Sys2Proof.Machine

/-! ### Frames compose -/

theorem Part.Same.refl (p : Part) (s : State) : p.Same s s := by
  cases p <;> simp [Part.Same]

theorem Part.Same.trans {p : Part} {s t u : State} (h : p.Same s t) (h' : p.Same t u) : p.Same s u := by
  cases p <;> simp_all [Part.Same]

theorem UnchangedBut.refl (l : List Part) (s : State) : UnchangedBut l s s := fun p _ => .refl p s

theorem UnchangedBut.trans {l : List Part} {s t u : State} (h : UnchangedBut l s t) (h' : UnchangedBut l t u) :
    UnchangedBut l s u := fun p hp => (h p hp).trans (h' p hp)

theorem UnchangedBut.mono {l l' : List Part} {s t : State} (h : UnchangedBut l s t) (hl : l ⊆ l') :
    UnchangedBut l' s t := fun p hp => h p fun hm => hp (hl hm)

/-! ### The named operations -/

variable (s : State)

theorem unchangedBut_setPc (a : Word) : UnchangedBut [.pc] s (s.setPc a) := by
  intro p hp
  cases p <;> simp [Part.Same] at hp ⊢

theorem unchangedBut_advance : UnchangedBut [.pc] s s.advance := unchangedBut_setPc s _

theorem unchangedBut_skipIf (c : Bool) : UnchangedBut [.pc] s (s.skipIf c) := by
  rw [State.skipIf_eq]
  exact unchangedBut_setPc s _

theorem unchangedBut_setV (x : Nibble) (b : Byte) : UnchangedBut [.v] s (s.setV x b) := by
  intro p hp
  cases p <;> simp [Part.Same] at hp ⊢

theorem unchangedBut_setI (a : Word) : UnchangedBut [.iReg] s (s.setI a) := by
  intro p hp
  cases p <;> simp [Part.Same] at hp ⊢

theorem unchangedBut_setHalted : UnchangedBut [.halted] s s.setHalted := by
  intro p hp
  cases p <;> simp [Part.Same] at hp ⊢

theorem unchangedBut_setFault (c : FaultCode) : UnchangedBut [.fault] s (s.setFault c) := by
  intro p hp
  cases p <;> simp [Part.Same] at hp ⊢

theorem unchangedBut_clearFb : UnchangedBut [.fb] s s.clearFb := by
  intro p hp
  cases p <;> simp [Part.Same] at hp ⊢

theorem unchangedBut_emitUnrecognized (w : Word) : UnchangedBut [.events] s (s.emitUnrecognized w) := by
  intro p hp
  cases p <;> simp [Part.Same] at hp ⊢

theorem unchangedBut_drawRnd : UnchangedBut [.rndDraws] s s.drawRnd.2 := by
  intro p hp
  cases p <;> simp [Part.Same, State.drawRnd, State.getV] at hp ⊢

theorem unchangedBut_setLoadStatus (r : LoadStatus) : UnchangedBut [.loadStatus] s (s.setLoadStatus r) := by
  intro p hp
  cases p <;> simp [Part.Same] at hp ⊢

theorem unchangedBut_setMem (m : Memory) : UnchangedBut [.mem] s (s.setMem m) := by
  intro p hp
  cases p <;> simp [Part.Same] at hp ⊢

theorem unchangedBut_tick : UnchangedBut [.dt, .st] s s.tick := by
  intro p hp
  cases p <;> simp [Part.Same] at hp ⊢

theorem unchangedBut_tickWhen (c : Bool) : UnchangedBut [.dt, .st] s (s.tickWhen c) := by
  cases c
  · exact .refl _ s
  · exact unchangedBut_tick s

/-- Ticking neither stops a core nor lets one run (60_exceptions R245). -/
theorem running_tickWhen (c : Bool) : Running (s.tickWhen c) ↔ Running s := by
  cases c <;> rfl

/-- The writes of CALL, then those of RET. -/
theorem unchangedBut_stackSpPc (k : Vector Word 12) (n : BitVec 4) (a : Word) :
    UnchangedBut [.pc, .sp, .stack] s { s with stack := k, sp := n, pc := a } := by
  intro p hp
  cases p <;> simp [Part.Same, State.getV] at hp ⊢

theorem unchangedBut_spPc (n : BitVec 4) (a : Word) : UnchangedBut [.pc, .sp] s { s with sp := n, pc := a } := by
  intro p hp
  cases p <;> simp [Part.Same, State.getV] at hp ⊢

theorem unchangedBut_load (image : List Byte) : UnchangedBut [.mem, .pc, .loadStatus] s (s.load image) := by
  unfold State.load
  split
  · exact (unchangedBut_setLoadStatus s _).mono (by decide)
  · exact (((unchangedBut_setMem s _).mono (by decide)).trans ((unchangedBut_setPc _ _).mono (by decide))).trans
      ((unchangedBut_setLoadStatus _ _).mono (by decide))

variable {s}

/-- An update of other pieces, then the next PC. -/
theorem UnchangedBut.advance {l : List Part} {t : State} (h : UnchangedBut l s t) :
    UnchangedBut (.pc :: l) s t.advance :=
  (h.mono (List.subset_cons_self _ _)).trans ((unchangedBut_advance t).mono (by simp))

theorem UnchangedBut.setV {l : List Part} {t : State} (h : UnchangedBut l s t) (x : Nibble) (b : Byte) :
    UnchangedBut (.v :: l) s (t.setV x b) :=
  (h.mono (List.subset_cons_self _ _)).trans ((unchangedBut_setV t x b).mono (by simp))

variable (s)

theorem unchangedBut_writeResultThenFlag (x : Nibble) (b f : Byte) :
    UnchangedBut [.v] s (s.writeResultThenFlag x b f) := (unchangedBut_setV s x b).trans (unchangedBut_setV _ regF f)

theorem unchangedBut_writeFlagThenResult (x : Nibble) (b f : Byte) :
    UnchangedBut [.v] s (s.writeFlagThenResult x b f) := (unchangedBut_setV s regF f).trans (unchangedBut_setV _ x b)

/-! ### The instructions -/

/-- Every instruction leaves unchanged the pieces outside its row (10_state R32, R47). -/
theorem exec_unchangedBut (i : Instr) : IfNext (UnchangedBut (partsWritten i) s) (exec i s) := by
  cases i with
  | halt => exact (unchangedBut_setHalted s).advance
  | cls => exact (unchangedBut_clearFb s).advance
  | ret =>
    exact exec_ret_ifNext (fun _ => (unchangedBut_setFault s _).mono (by decide))
      fun _ _ => (unchangedBut_spPc s _ _).mono (by decide)
  | jp nnn =>
    exact exec_jp_ifNext (fun _ => (unchangedBut_setFault s _).mono (by simp [partsWritten]))
      fun _ => (unchangedBut_setPc s _).mono (by simp [partsWritten])
  | call nnn =>
    exact exec_call_ifNext (fun _ => (unchangedBut_setFault s _).mono (by simp [partsWritten]))
      fun _ => (unchangedBut_stackSpPc s _ _ _).mono (by simp [partsWritten])
  | seImm | sneImm | seReg | sneReg => exact unchangedBut_skipIf s _
  | ldImm | addImm | ldReg | orReg | andReg | xorReg => exact (unchangedBut_setV s _ _).advance
  | addReg | sub | subn => exact (unchangedBut_writeResultThenFlag s _ _ _).advance
  | shr | shl => exact (unchangedBut_writeFlagThenResult s _ _ _).advance
  | ldI => exact (unchangedBut_setI s _).advance
  | jpV0 => exact unchangedBut_setPc s _
  | rnd => exact ((unchangedBut_drawRnd s).setV _ _).advance
  | unrecognized => exact (unchangedBut_emitUnrecognized s _).advance

/-- No instruction writes a register outside its writes column (10_state R32). -/
theorem exec_getV_of_not_written (i : Instr) :
    IfNext (fun t => ∀ r, r ∉ regsWritten i → t.getV r = s.getV r) (exec i s) := by
  cases i with
  | ldImm | addImm | ldReg | orReg | andReg | xorReg => intro r hr; simp_all [regsWritten]
  | addReg | sub | subn => intro r hr; simp_all [regsWritten, State.getV_writeResultThenFlag]
  | shr | shl => intro r hr; simp_all [regsWritten, State.getV_writeFlagThenResult]
  | rnd => rw [exec_rnd]; intro r hr; simp_all [regsWritten]
  | _ => exact (exec_unchangedBut s _).imp fun _ h r _ => h .v (by simp [partsWritten]) r

end Sys2Proof.Safety
end

section
/-! Noninterference: no instruction's effect depends on a register outside its reads column (10_state R32), and none on
MEM, I or a timer. -/

namespace Sys2Proof.Safety

open Sys2Proof.Machine

/-! ### States that agree but for registers -/

/-- `t'` is `t` but for registers outside `ws`. -/
structure AgreeOnRegs (ws : List Nibble) (t' t : State) : Prop where
  rest : { t' with v := t.v } = t
  regs : ∀ r ∈ ws, t'.getV r = t.getV r

theorem AgreeOnRegs.mono {ws ws' : List Nibble} {t' t : State} (h : AgreeOnRegs ws t' t) (hw : ws' ⊆ ws) :
    AgreeOnRegs ws' t' t := ⟨h.rest, fun r hr => h.regs r (hw hr)⟩

/-- States that differ in the register file alone. -/
theorem AgreeOnRegs.of_rest {t' t : State} (h : { t' with v := t.v } = t) : AgreeOnRegs [] t' t := ⟨h, nofun⟩

/-- Writing one byte to one register of both states makes them agree on that register too. -/
theorem AgreeOnRegs.setV {ws : List Nibble} {t' t : State} (h : AgreeOnRegs ws t' t) (x : Nibble) (b : Byte) :
    AgreeOnRegs (x :: ws) (t'.setV x b) (t.setV x b) := by
  obtain ⟨hrest, hregs⟩ := h
  refine ⟨congrArg (·.setV x b) hrest, fun r hr => ?_⟩
  by_cases hx : r = x
  · simp [hx]
  · simpa [hx] using hregs r (by simpa [hx] using hr)

theorem AgreeOnRegs.advance {ws : List Nibble} {t' t : State} (h : AgreeOnRegs ws t' t) :
    AgreeOnRegs ws t'.advance t.advance := ⟨congrArg State.advance h.rest, h.regs⟩

theorem AgreeOnRegs.writeResultThenFlag {ws : List Nibble} {t' t : State} (h : AgreeOnRegs ws t' t) (x : Nibble)
    (b f : Byte) : AgreeOnRegs (regF :: x :: ws) (t'.writeResultThenFlag x b f) (t.writeResultThenFlag x b f) :=
  (h.setV x b).setV regF f

theorem AgreeOnRegs.writeFlagThenResult {ws : List Nibble} {t' t : State} (h : AgreeOnRegs ws t' t) (x : Nibble)
    (b f : Byte) : AgreeOnRegs (x :: regF :: ws) (t'.writeFlagThenResult x b f) (t.writeFlagThenResult x b f) :=
  (h.setV regF f).setV x b

/-! ### Registers -/

/-- Where the registers an instruction reads agree, its next states agree but for registers it does not write. -/
theorem exec_agreeOnRegs (i : Instr) (s : State) (v' : Vector Byte 16)
    (hr : ∀ r ∈ regsRead i, ({ s with v := v' } : State).getV r = s.getV r) :
    IfNext (fun t => ∃ t', exec i { s with v := v' } = .next t' ∧ AgreeOnRegs (regsWritten i) t' t) (exec i s) := by
  have hs : AgreeOnRegs [] { s with v := v' } s := .of_rest rfl
  cases i with
  | jp nnn =>
    exact exec_jp_ifNext (fun h => ⟨_, exec_jp_of_low h, .of_rest rfl⟩) fun h => ⟨_, exec_jp_of_not_low h, .of_rest rfl⟩
  | call nnn =>
    exact exec_call_ifNext (fun h => ⟨_, exec_call_of_full h, .of_rest rfl⟩)
      fun h => ⟨_, exec_call_of_room (s := { s with v := v' }) h, .of_rest rfl⟩
  | ret =>
    exact exec_ret_ifNext (fun h => ⟨_, exec_ret_of_empty h, .of_rest rfl⟩)
      fun h0 h => ⟨_, exec_ret_of_held (s := { s with v := v' }) h0 h, .of_rest rfl⟩
  | halt | cls | ldI | unrecognized => exact ⟨_, rfl, .of_rest rfl⟩
  | jpV0 nnn =>
    refine ⟨_, exec_jpV0 _ nnn, ?_⟩
    rw [State.jumpV0Target, hr reg0 (by simp [regsRead, reg0])]
    exact .of_rest rfl
  | seImm x nn | sneImm x nn =>
    simp only [exec_seImm, exec_sneImm, hr x (by simp [regsRead]), State.skipIf_eq]
    exact ⟨_, rfl, .of_rest rfl⟩
  | seReg x y | sneReg x y =>
    simp only [exec_seReg, exec_sneReg, hr x (by simp [regsRead]), hr y (by simp [regsRead]), State.skipIf_eq]
    exact ⟨_, rfl, .of_rest rfl⟩
  | ldImm x nn => exact ⟨_, rfl, (hs.setV x nn).advance⟩
  | rnd x nn => exact ⟨_, rfl, ((AgreeOnRegs.of_rest (t := s.drawRnd.2) rfl).setV x _).advance⟩
  | addImm x nn =>
    simp only [exec_addImm, hr x (by simp [regsRead])]
    exact ⟨_, rfl, (hs.setV x _).advance⟩
  | ldReg x y =>
    simp only [exec_ldReg, hr y (by simp [regsRead])]
    exact ⟨_, rfl, (hs.setV x _).advance⟩
  | orReg x y | andReg x y | xorReg x y =>
    simp only [exec_orReg, exec_andReg, exec_xorReg, hr x (by simp [regsRead]), hr y (by simp [regsRead])]
    exact ⟨_, rfl, (hs.setV x _).advance⟩
  | addReg x y | sub x y | subn x y =>
    simp only [exec_addReg, exec_sub, exec_subn, hr x (by simp [regsRead]), hr y (by simp [regsRead])]
    exact ⟨_, rfl, (hs.writeResultThenFlag x _ _).advance.mono (by simp [regsWritten, regF])⟩
  | shr x y | shl x y =>
    simp only [exec_shr, exec_shl, hr y (by simp [regsRead])]
    exact ⟨_, rfl, (hs.writeFlagThenResult x _ _).advance.mono (by simp [regsWritten, regF])⟩

/-! ### The pieces no instruction reads -/

/-- Replace MEM, I, DT and ST, each where a new value is given. No instruction reads any of the four (10_state R33, R38;
20_memory R87). -/
def replaceUnread (m : Option Memory) (a : Option Word) (d e : Option Byte) (s : State) : State :=
  { s with mem := m.getD s.mem, iReg := a.getD s.iReg, dt := d.getD s.dt, st := e.getD s.st }

/-- Executing after the replacement is executing and then replacing; for ANNN, which writes I, where I is not replaced. -/
theorem exec_replaceUnread (m : Option Memory) (a : Option Word) (d e : Option Byte) (i : Instr) (s : State)
    (hi : ∀ nnn, i = .ldI nnn → a = none) :
    exec i (replaceUnread m a d e s) = mapNext (replaceUnread m a d e) (exec i s) := by
  cases i with
  | jp nnn =>
    by_cases h : nnn < s.params.jumpMin
    · rw [exec_jp_of_low h]; exact exec_jp_of_low (s := replaceUnread m a d e s) h
    · rw [exec_jp_of_not_low h]; exact exec_jp_of_not_low (s := replaceUnread m a d e s) h
  | call nnn =>
    rcases lt_trichotomy s.sp.toNat 12 with h | h | h
    · rw [exec_call_of_room h]; exact exec_call_of_room (s := replaceUnread m a d e s) h
    · rw [exec_call_of_full h]; exact exec_call_of_full (s := replaceUnread m a d e s) h
    · rw [exec_call_of_beyond h]; exact exec_call_of_beyond (s := replaceUnread m a d e s) h
  | ret =>
    by_cases h0 : s.sp = 0#4
    · rw [exec_ret_of_empty h0]; exact exec_ret_of_empty (s := replaceUnread m a d e s) h0
    · rcases Nat.lt_or_ge 12 s.sp.toNat with h | h
      · rw [exec_ret_of_beyond h]; exact exec_ret_of_beyond (s := replaceUnread m a d e s) h
      · rw [exec_ret_of_held h0 h]; exact exec_ret_of_held (s := replaceUnread m a d e s) h0 h
  | seImm | sneImm | seReg | sneReg =>
    simp only [exec_seImm, exec_sneImm, exec_seReg, exec_sneReg, State.skipIf_eq]
    rfl
  | ldI nnn =>
    obtain rfl := hi nnn rfl
    rfl
  | _ => rfl

/-- Executing after replacing I is executing and then replacing I, for every instruction but ANNN. -/
theorem exec_setI (i : Instr) (s : State) (a : Word) (hi : ∀ nnn, i ≠ .ldI nnn) :
    exec i (s.setI a) = mapNext (·.setI a) (exec i s) :=
  exec_replaceUnread none (some a) none none i s fun nnn h => absurd h (hi nnn)

/-- ANNN answers the same whatever I was. -/
theorem exec_ldI_setI (nnn : Addr12) (s : State) (a : Word) : exec (.ldI nnn) (s.setI a) = exec (.ldI nnn) s := rfl

end Sys2Proof.Safety
end

section
/-! The invariant of a run: one rule for each operation, then execute, the cycle and the host protocol. -/

namespace Sys2Proof.Safety

open Sys2Proof.Machine

/-! ### The operations -/

section
variable {s : State} (h : Inv s)
include h

theorem Inv.setPc {a : Word} (ha : a.toNat ≤ 0x10FE) : Inv (s.setPc a) := { h with pcRange := ha }

/-- The next PC of a straight instruction stays in range, since no fetch is above 0xFFF. -/
theorem Inv.advance (hpc : s.pc.toNat ≤ 0xFFF) : Inv s.advance :=
  h.setPc (by rw [State.nextPc, pcStep, BitVec.toNat_add, BitVec.toNat_ofNat]; omega)

theorem Inv.skipIf (hpc : s.pc.toNat ≤ 0xFFF) (c : Bool) : Inv (s.skipIf c) := by
  rw [State.skipIf_eq]
  refine h.setPc ?_
  split <;> simp only [BitVec.toNat_add, BitVec.toNat_ofNat] <;> omega

theorem Inv.setV (x : Nibble) (b : Byte) : Inv (s.setV x b) := { h with }

theorem Inv.writeResultThenFlag (x : Nibble) (b f : Byte) : Inv (s.writeResultThenFlag x b f) := (h.setV x b).setV regF f

theorem Inv.writeFlagThenResult (x : Nibble) (b f : Byte) : Inv (s.writeFlagThenResult x b f) := (h.setV regF f).setV x b

theorem Inv.setI {a : Word} (ha : a.toNat ≤ 0xFFF) : Inv (s.setI a) := { h with iRange := ha }

theorem Inv.setHalted (hf : s.fault = .none) : Inv s.setHalted := { h with oneStop := fun _ => hf }

theorem Inv.setFault (hh : s.halted = false) (c : FaultCode) : Inv (s.setFault c) :=
  { h with oneStop := fun e => absurd (hh.symm.trans e) Bool.false_ne_true }

theorem Inv.clearFb : Inv s.clearFb := { h with fbWf := s.clearFb_wf, fbClear := s.clearFb_cell }

theorem Inv.emitUnrecognized (w : Word) : Inv (s.emitUnrecognized w) := { h with }

theorem Inv.drawRnd : Inv s.drawRnd.2 := { h with }

theorem Inv.setLastWord (w : Word) : Inv (s.setLastWord w) := { h with }

theorem Inv.setTimers (d e : Byte) : Inv { s with dt := d, st := e } := { h with }

theorem Inv.tick : Inv s.tick := h.setTimers _ _

theorem Inv.tickWhen (c : Bool) : Inv (s.tickWhen c) := by
  cases c
  · exact h
  · exact h.tick

theorem Inv.beginCycle : Inv s.beginCycle := by
  rw [State.beginCycle_eq]
  exact (h.setTimers s.beginCycle.dt s.beginCycle.st).setPc (s.beginCycle_pc_le.trans (by decide))

/-- A push of an address CALL can push. -/
theorem Inv.call {a pc : Word} (ha : a.toNat ≤ 0x1001) (hpc : pc.toNat ≤ 0x10FE) (hs : s.sp.toNat < 12) :
    Inv { s with stack := s.stack.set s.sp.toNat a hs, sp := s.sp + 1#4, pc := pc } :=
  { h with
    pcRange := hpc
    spRange := by
      change (s.sp + 1#4).toNat ≤ 12
      rw [BitVec.toNat_add, BitVec.toNat_ofNat]
      omega
    stackRange := fun k hk => by
      rw [Vector.getElem_set]
      split
      · exact ha
      · exact h.stackRange k hk }

/-- A pop. -/
theorem Inv.ret (h0 : s.sp ≠ 0#4) (h12 : s.sp.toNat ≤ 12) :
    Inv { s with sp := s.sp - 1#4, pc := s.stack[s.sp.toNat - 1]'(by omega) } :=
  { h with
    pcRange := (h.stackRange _ _).trans (by decide)
    spRange := (State.sp_pred_toNat h0).trans_le (by omega) }

theorem Inv.setLoadStatus (r : LoadStatus) : Inv (s.setLoadStatus r) := { h with }

theorem Inv.load (image : List Byte) : Inv (s.load image) := by
  unfold State.load
  split
  · exact h.setLoadStatus _
  · exact { h with
      memWf := Memory.writeBytes_wf (m := []) rfl _ image
      memLow := fun a ha => Memory.byteAt_writeBytes_below (m := []) rfl ha image
      pcRange := by simp }

end

/-! ### Execute and the cycle -/

/-- Every instruction of a running core keeps the invariant, from the PC of a fetch. -/
theorem exec_inv {s : State} (h : Inv s) (hrun : Running s) (hpc : s.pc.toNat ≤ 0xFFF) (i : Instr) :
    IfNext Inv (exec i s) := by
  obtain ⟨hhalted, hfault⟩ := hrun
  cases i with
  | halt => exact (h.setHalted hfault).advance hpc
  | cls => exact h.clearFb.advance hpc
  | ret => exact exec_ret_ifNext (fun _ => h.setFault hhalted _) fun h0 h12 => h.ret h0 h12
  | jp nnn => exact exec_jp_ifNext (fun _ => h.setFault hhalted _) fun _ => h.setPc (by rw [zextAddr_toNat]; omega)
  | call nnn =>
    exact exec_call_ifNext (fun _ => h.setFault hhalted _) fun hs =>
      h.call (by rw [BitVec.toNat_add, BitVec.toNat_ofNat]; omega) (by rw [zextAddr_toNat]; omega) hs
  | seImm | sneImm | seReg | sneReg => exact h.skipIf hpc _
  | ldImm | addImm | ldReg | orReg | andReg | xorReg => exact (h.setV _ _).advance hpc
  | addReg | sub | subn => exact (h.writeResultThenFlag _ _ _).advance hpc
  | shr | shl => exact (h.writeFlagThenResult _ _ _).advance hpc
  | ldI nnn => exact (h.setI (by rw [zextAddr_toNat]; omega)).advance hpc
  | jpV0 nnn =>
    refine h.setPc ?_
    rw [State.jumpV0Target, BitVec.toNat_add, zextAddr_toNat, zextByte_toNat]
    omega
  | rnd => exact (h.drawRnd.setV _ _).advance hpc
  | unrecognized w => exact (h.emitUnrecognized w).advance hpc

/-- Every cycle keeps the invariant. -/
theorem step_inv {s : State} (h : Inv s) : IfNext Inv (step s) := by
  rcases step_cases s with ⟨-, hs⟩ | ⟨hrun, w, -, hs⟩
  · rw [hs]
    exact h
  · rw [hs]
    exact exec_inv (h.beginCycle.setLastWord w) (ignoresCycle_eq_false_iff.1 hrun).beginCycle
      s.beginCycle_pc_le _

/-! ### Reset -/

/-- Reset with any values of the model's own three fields satisfies the invariant. -/
theorem inv_reset (p : Config.Params) (e : List UnrecEvent) (n : Nat) :
    Inv { State.reset with params := p, events := e, rndDraws := n } where
  memWf := rfl
  memLow := fun _ _ => rfl
  fbWf := rfl
  fbClear := fun _ => rfl
  spRange := by simp [State.reset]
  iRange := by simp [State.reset]
  pcRange := by simp [State.reset]
  stackRange := fun k hk => by simp [State.reset]
  oneStop := nofun

end Sys2Proof.Safety
end

section
/-! The timers: zero from reset on, since no instruction writes them (60_exceptions R246). -/

namespace Sys2Proof.Safety

open Sys2Proof.Machine

theorem TimersZero.tick {s : State} (h : TimersZero s) : TimersZero s.tick := by
  obtain ⟨hd, hs⟩ := h
  simp [TimersZero, hd, hs, countDown]

theorem TimersZero.tickWhen {s : State} (h : TimersZero s) (c : Bool) : TimersZero (s.tickWhen c) := by
  cases c
  · exact h
  · exact h.tick

/-- Timers are carried along by any change of other pieces. -/
theorem TimersZero.of_unchangedBut {s t : State} (h : TimersZero s) {l : List Part} (hf : UnchangedBut l s t)
    (hdt : .dt ∉ l) (hst : .st ∉ l) : TimersZero t :=
  ⟨Eq.trans (hf .dt hdt) h.1, Eq.trans (hf .st hst) h.2⟩

/-- The row of no instruction names a timer (10_state R47). -/
theorem dt_not_mem_partsWritten (i : Instr) : .dt ∉ partsWritten i := by cases i <;> simp [partsWritten]

theorem st_not_mem_partsWritten (i : Instr) : .st ∉ partsWritten i := by cases i <;> simp [partsWritten]

theorem exec_timersZero {s : State} (h : TimersZero s) (i : Instr) : IfNext TimersZero (exec i s) :=
  (exec_unchangedBut s i).imp fun _ hf => h.of_unchangedBut hf (dt_not_mem_partsWritten i) (st_not_mem_partsWritten i)

theorem TimersZero.beginCycle {s : State} (h : TimersZero s) : TimersZero s.beginCycle := by
  rw [State.beginCycle, State.fetchGuard_eq]
  exact h.tickWhen s.params.timerOnCycle

theorem step_timersZero {s : State} (h : TimersZero s) : IfNext TimersZero (step s) := by
  rcases step_cases s with ⟨-, hs⟩ | ⟨-, w, -, hs⟩
  · rw [hs]
    exact h
  · rw [hs]
    exact exec_timersZero (s := s.beginCycle.setLastWord w) h.beginCycle _

end Sys2Proof.Safety
end

section
/-! The host protocol (10_state R48): the steps of a stopped core, and runs. -/

namespace Sys2Proof.Safety

open Sys2Proof.Machine

/-- A halted or faulted core's step, without RST, is the tick and the load at most. -/
theorem hostStep_of_stopped {s : State} (hs : ¬ Running s) {input : HostInput} (hrst : input.rst = false) :
    ∃ t, hostStep input s = .next t ∧ UnchangedBut [.mem, .pc, .loadStatus, .dt, .st] s t := by
  have htick := (unchangedBut_tickWhen s input.tick).mono (l' := [.mem, .pc, .loadStatus, .dt, .st]) (by decide)
  rcases hostStep_cases input s with ⟨h, -⟩ | ⟨-, -, h⟩ | ⟨image, -, -, h⟩ | ⟨-, -, h⟩
  · exact absurd (hrst.symm.trans h) Bool.false_ne_true
  · exact ⟨_, h, htick⟩
  · exact ⟨_, h, htick.trans ((unchangedBut_load _ image).mono (by decide))⟩
  · exact ⟨_, h.trans (step_of_not_running ((running_tickWhen s _).not.2 hs)), htick⟩

/-- Every step of the host protocol goes on, and keeps the invariant and zero timers. -/
theorem hostStep_answers_inv (input : HostInput) {s : State} (h : Inv s) (ht : TimersZero s) :
    ∃ t, hostStep input s = .next t ∧ Inv t ∧ TimersZero t := by
  have h1 := h.tickWhen input.tick
  have ht1 := ht.tickWhen input.tick
  rcases hostStep_cases input s with ⟨-, hs⟩ | ⟨-, -, hs⟩ | ⟨image, -, -, hs⟩ | ⟨-, -, hs⟩
  · exact ⟨_, hs, inv_reset _ _ _, rfl, rfl⟩
  · exact ⟨_, hs, h1, ht1⟩
  · exact ⟨_, hs, h1.load image, ht1.of_unchangedBut (unchangedBut_load _ image) (by decide) (by decide)⟩
  · obtain ⟨t, hstep⟩ := step_answers h1.spRange
    exact ⟨t, hs.trans hstep, (step_inv h1).of_eq hstep, (step_timersZero ht1).of_eq hstep⟩

/-- What every step of the host protocol answers and keeps, every run answers and keeps. -/
theorem hostRun_answers {P : State → Prop} (hP : ∀ input s, P s → ∃ t, hostStep input s = .next t ∧ P t)
    (inputs : List HostInput) {s : State} (h : P s) : ∃ t, hostRun inputs s = .next t ∧ P t := by
  induction inputs generalizing s with
  | nil => exact ⟨s, rfl, h⟩
  | cons input rest ih =>
    obtain ⟨t, hstep, ht⟩ := hP input s h
    obtain ⟨u, hrun, hu⟩ := ih ht
    exact ⟨u, by rw [hostRun, hstep]; exact hrun, hu⟩

end Sys2Proof.Safety
end

section
/-! The framebuffer's addresses (10_state R39). -/

namespace Sys2Proof.Machine

/-- The cell of a pixel, without overflow of the 11 bits of FB_ADDR. -/
theorem fbIndex_toNat (x : BitVec 6) (y : BitVec 5) : (fbIndex x y).toNat = y.toNat * 64 + x.toNat := by
  rw [fbIndex, BitVec.toNat_ofNat, Config.fbWidth]
  omega

/-- Distinct pixels have distinct cells. -/
theorem fbIndex_inj {x x' : BitVec 6} {y y' : BitVec 5} (h : fbIndex x y = fbIndex x' y') : x = x' ∧ y = y' := by
  have hn := congrArg BitVec.toNat h
  rw [fbIndex_toNat, fbIndex_toNat] at hn
  constructor <;> apply BitVec.eq_of_toNat_eq <;> omega

theorem State.pixelOn_iff (s : State) (x : BitVec 6) (y : BitVec 5) :
    s.pixelOn x y = true ↔ s.fb.cell (y.toNat * 64 + x.toNat) ≠ 0x00#8 := by
  rw [State.pixelOn, State.fbData, fbIndex_toNat, bne_iff_ne]

end Sys2Proof.Machine
end

section
/-! The statements of the family 10_state. -/

namespace Sys2Proof

open Sys2Proof.Machine Sys2Proof.Safety

/-- Settles O48, by the invariant's rule for each operation. -/
theorem stepKeepsTheInvariant : Obligations.StepKeepsTheInvariant :=
  fun _ _ h hstep => (step_inv h).of_eq hstep

/-- Settles O50: one step of the host protocol, then induction on the inputs. -/
theorem everyHostRunFromResetGoesOn : Obligations.EveryHostRunFromResetGoesOn :=
  ⟨fun input _ h ht => hostStep_answers_inv input h ht, fun inputs p =>
    hostRun_answers (P := fun s => Inv s ∧ TimersZero s) (fun input _ h => hostStep_answers_inv input h.1 h.2) inputs
      ⟨inv_reset p _ _, rfl, rfl⟩⟩

/-- Settles O42, by the frame of each operation and the register rule. -/
theorem instructionsWriteOnlyTheirParts : Obligations.InstructionsWriteOnlyTheirParts :=
  fun i s _ h => ⟨(exec_unchangedBut s i).of_eq h, (exec_getV_of_not_written s i).of_eq h⟩

/-- Settles O43, by agreement outside the registers not written. -/
theorem instructionsReadOnlyTheirRegisters : Obligations.InstructionsReadOnlyTheirRegisters := by
  intro i s v' hr t h
  obtain ⟨t', h', hrest, hregs⟩ := (exec_agreeOnRegs i s v' hr).of_eq h
  exact ⟨t', h', hrest, hregs⟩

/-- Settles O45. -/
theorem indexRegisterIsWriteOnly : Obligations.IndexRegisterIsWriteOnly :=
  fun i s a => ⟨exec_setI i s a, fun nnn => exec_ldI_setI nnn s a⟩

/-- Settles O49: the fetch always succeeds, and every instruction answers. -/
theorem cycleNeverStopsTheModel : Obligations.CycleNeverStopsTheModel :=
  fun _ h => step_answers h

/-- Settles O51. -/
theorem stopLastsUntilReset : Obligations.StopLastsUntilReset :=
  ⟨fun _ _ hs hrst => hostStep_of_stopped hs hrst, fun _ _ hrst => ⟨_, hostStep_of_rst hrst _, rfl, rfl⟩⟩

/-- Settles O59. -/
theorem pixelsHaveTheirOwnCells : Obligations.PixelsHaveTheirOwnCells :=
  ⟨fbIndex_toNat, fun _ _ _ _ h => fbIndex_inj h, State.pixelOn_iff⟩

/-- Settles O13. -/
theorem callAndReturnStopBeyondTheStack : Obligations.CallAndReturnStopBeyondTheStack :=
  ⟨fun _ _ h => exec_call_of_beyond h, fun _ h => exec_ret_of_beyond h⟩

/-- Settles O47. -/
theorem resetSatisfiesTheInvariant : Obligations.ResetSatisfiesTheInvariant := inv_reset _ _ _

/-- Settles O53: a core after RST and the reset state differ in the model's own fields alone. -/
theorem resetGivesEveryStatedValue : Obligations.ResetGivesEveryStatedValue := by
  intro s r hr
  obtain ⟨p, e, n, rfl⟩ : ∃ p e n, r = { State.reset with params := p, events := e, rndDraws := n } := by
    rcases hr with rfl | rfl
    · exact ⟨_, _, _, rfl⟩
    · exact ⟨_, _, _, rfl⟩
  refine ⟨fun _ => rfl, fun x => ?_, rfl, rfl, rfl, fun k hk => ?_, rfl, rfl, fun _ => rfl, rfl, rfl, rfl, rfl⟩
  · simp [State.getV, State.reset]
  · simp [State.reset]

/-- Settles O58. -/
theorem resetTakesPriority : Obligations.ResetTakesPriority :=
  fun _ _ s => ⟨s.resetCore, hostStep_of_rst rfl s, hostStep_of_rst rfl s, ⟨rfl, rfl⟩, rfl, rfl⟩

end Sys2Proof
end

section
/-! The fetch addresses of a guarded state (40_cycle R142), and the word placed there (log entry 8). -/

namespace Sys2Proof.Machine

/-! ### The fetch addresses -/

/-- Under either value of P_FETCH_OVERRUN, a1 is the address after a0, and 0 after the last one. -/
theorem State.fetchGuard_fetchAddr1 (s : State) :
    s.fetchGuard.fetchAddr1 = (s.fetchGuard.fetchAddr0 + 1) % 0x1000 := by
  have hparams : s.fetchGuard.params = s.params := by rw [State.fetchGuard_eq]
  unfold State.fetchAddr0 State.fetchAddr1
  rw [hparams]
  cases h : s.params.fetchOverrun with
  | reset =>
    have hle : s.fetchGuard.pc.toNat ≤ 0xFFE := by
      simp only [State.fetchGuard, h]
      split
      · simp
      · omega
    simp only
    omega
  | wrap => rfl

/-- The guard's PC depends on PC and the parameters alone. -/
theorem State.fetchGuard_pc_congr {s t : State} (hpc : t.pc = s.pc) (hparams : t.params = s.params) :
    t.fetchGuard.pc = s.fetchGuard.pc := by
  unfold State.fetchGuard
  rw [hparams, hpc]
  cases s.params.fetchOverrun <;> simp only
  · split
    · rfl
    · exact hpc
  · rfl

/-- So do both fetch addresses. -/
theorem State.fetchGuard_fetchAddrs_congr {s t : State} (hpc : t.pc = s.pc) (hparams : t.params = s.params) :
    t.fetchGuard.fetchAddr0 = s.fetchGuard.fetchAddr0 ∧ t.fetchGuard.fetchAddr1 = s.fetchGuard.fetchAddr1 := by
  have h0 : t.fetchGuard.fetchAddr0 = s.fetchGuard.fetchAddr0 :=
    congrArg BitVec.toNat (State.fetchGuard_pc_congr hpc hparams)
  exact ⟨h0, by rw [State.fetchGuard_fetchAddr1, State.fetchGuard_fetchAddr1, h0]⟩

/-! ### The placed word -/

/-- MEM after a word is placed, byte by byte. -/
theorem State.placeWord_byteAt {s : State} (h : s.mem.wf = true) (w : Word) (q : Nat) :
    (s.placeWord w).mem.byteAt q =
      if q = s.fetchGuard.fetchAddr1 then w.extractLsb' 0 8
      else if q = s.fetchGuard.fetchAddr0 then w.extractLsb' 8 8 else s.mem.byteAt q := by
  have h0 : s.fetchGuard.fetchAddr0 < 4096 := Nat.lt_succ_of_le s.fetchGuard_pc_le
  have h1 : s.fetchGuard.fetchAddr1 < 4096 := by rw [State.fetchGuard_fetchAddr1]; omega
  rw [← Memory.byteAt_write h h0, ← Memory.byteAt_write (Memory.write_wf h _ _) h1]
  rfl

/-- The two bytes of a word, the high one first, are that word. -/
theorem extractLsb'_append_bytes (w : Word) : w.extractLsb' 8 8 ++ w.extractLsb' 0 8 = w := by
  rw [BitVec.extractLsb'_append_extractLsb'_eq_extractLsb' (by rfl : 8 = 0 + 8), BitVec.extractLsb'_eq_self]

theorem State.withFetchWord_toNat (s : State) (w : Word) : s.withFetchWord 16 w.toNat = s.placeWord w := by
  rw [State.withFetchWord, tableWord, Nat.mod_eq_of_lt w.isLt, BitVec.ofNat_toNat, BitVec.setWidth_eq]

end Sys2Proof.Machine

namespace Sys2Proof.Safety

open Sys2Proof.Machine

/-- A cycle fetches the bytes MEM holds at the guarded addresses: its tick changes neither. -/
theorem fetchedWord_eq (s : State) :
    fetchedWord s = s.mem.byteAt s.fetchGuard.fetchAddr0 ++ s.mem.byteAt s.fetchGuard.fetchAddr1 := by
  have hmem : s.beginCycle.mem = s.mem := by rw [State.beginCycle_eq]
  obtain ⟨h0, h1⟩ := State.fetchGuard_fetchAddrs_congr (s := s) (t := s.cycleTick)
    (by rw [State.cycleTick_eq]) (by rw [State.cycleTick_eq])
  rw [fetchedWord, hmem, State.beginCycle, h0, h1]

/-- The placed word is the word the next cycle fetches. -/
theorem fetchedWord_placeWord {s : State} (h : s.mem.wf = true) (w : Word) : fetchedWord (s.placeWord w) = w := by
  obtain ⟨h0, h1⟩ := State.fetchGuard_fetchAddrs_congr (s := s) (t := s.placeWord w) rfl rfl
  have hne : s.fetchGuard.fetchAddr0 ≠ s.fetchGuard.fetchAddr1 := by rw [State.fetchGuard_fetchAddr1]; omega
  rw [fetchedWord_eq, h0, h1, State.placeWord_byteAt h, State.placeWord_byteAt h, if_neg hne, if_pos rfl, if_pos rfl,
    extractLsb'_append_bytes]

/-- Executing after replacing MEM is executing and then replacing MEM (20_memory R87). -/
theorem exec_setMem (i : Instr) (s : State) (m : Memory) : exec i (s.setMem m) = mapNext (·.setMem m) (exec i s) :=
  exec_replaceUnread (some m) none none none i s fun _ _ => rfl

end Sys2Proof.Safety
end

section
/-! The statements of the family 20_memory. -/

namespace Sys2Proof

open Sys2Proof.Machine Sys2Proof.Safety

/-- Settles O44: MEM is among the pieces no instruction reads or writes. -/
theorem instructionsNeverTouchMemory : Obligations.InstructionsNeverTouchMemory := exec_setMem

/-- Settles O60, by MEM after the placing, read at the addresses the next cycle fetches from. -/
theorem placedWordRunsNext : Obligations.PlacedWordRunsNext := by
  intro s w h
  rw [State.withFetchWord_toNat]
  refine ⟨⟨rfl, rfl⟩, fetchedWord_placeWord h w, fun a ha0 ha1 => ?_⟩
  rw [State.placeWord_byteAt h, if_neg ha1, if_neg ha0]

end Sys2Proof
end

section
/-! The rows of the opcode map (30_encoding R116): every instruction has one row or none, its word meets that row, and a word
meets at most one row. -/

namespace Sys2Proof.Laws.OpcodeRow

open Sys2Proof.Safety

/-- Every instruction's word meets its row, or no row where it has none. -/
theorem statement_holds (i : Instr) : Statement i := by
  cases i with
  | halt => exact halt
  | cls => exact cls
  | ret => exact ret
  | jp nnn => exact jp nnn
  | call nnn => exact call nnn
  | seImm x nn => exact seImm x nn
  | sneImm x nn => exact sneImm x nn
  | seReg x y => exact seReg x y
  | ldImm x nn => exact ldImm x nn
  | addImm x nn => exact addImm x nn
  | ldReg x y => exact ldReg x y
  | orReg x y => exact orReg x y
  | andReg x y => exact andReg x y
  | xorReg x y => exact xorReg x y
  | addReg x y => exact addReg x y
  | sub x y => exact sub x y
  | shr x y => exact shr x y
  | subn x y => exact subn x y
  | shl x y => exact shl x y
  | sneReg x y => exact sneReg x y
  | ldI nnn => exact ldI nnn
  | jpV0 nnn => exact jpV0 nnn
  | rnd x nn => exact rnd x nn
  | unrecognized w => exact unrecognized w

theorem encode_meets_row {i : Instr} (hwf : WellFormed i) {r : Word × Word} (h : opcodeRow i = some r) :
    encode i &&& r.1 = r.2 := by
  have hi := statement_holds i hwf
  rwa [h] at hi

theorem encode_meets_no_row {i : Instr} (hwf : WellFormed i) (h : opcodeRow i = none) :
    ∀ r ∈ opcodeRows, encode i &&& r.1 ≠ r.2 := by
  have hi := statement_holds i hwf
  rwa [h] at hi

theorem mem_opcodeRows {i : Instr} {r : Word × Word} (h : opcodeRow i = some r) : r ∈ opcodeRows := by
  cases i with
  | unrecognized w => cases h
  | _ => cases h; decide

/-- The unrecognized instructions, and no others, have no row. -/
theorem opcodeRow_eq_none_iff (i : Instr) : opcodeRow i = none ↔ i = .unrecognized (encode i) := by
  cases i <;> simp [opcodeRow, encode]

/-- The two matches differ on a bit that both masks keep. -/
def RowsDisagree (r r' : Word × Word) : Prop := r.2 &&& r'.1 ≠ r'.2 &&& r.1

theorem opcodeRows_pairwise_disagree : opcodeRows.Pairwise RowsDisagree := by
  unfold RowsDisagree
  decide

/-- A word meets at most one row: two rows it meets agree on every bit that both masks keep. -/
theorem row_unique {w : Word} {r r' : Word × Word} (hr : r ∈ opcodeRows) (hr' : r' ∈ opcodeRows)
    (h : w &&& r.1 = r.2) (h' : w &&& r'.1 = r'.2) : r = r' := by
  have : Std.Symm RowsDisagree := ⟨fun _ _ => Ne.symm⟩
  by_contra hne
  refine opcodeRows_pairwise_disagree.forall hr hr' hne ?_
  rw [← h, ← h', BitVec.and_assoc, BitVec.and_assoc, BitVec.and_comm r.1]

end Sys2Proof.Laws.OpcodeRow
end

section
/-! Decode and encode agree (30_encoding R112, R115, R116): the instruction decode answers is well formed and has that word,
and the word of a well-formed instruction decodes to it. -/

namespace Sys2Proof

open Sys2Proof.Safety Sys2Proof.Laws

/-! ### A word from its family's operands -/

variable {w : Word}

theorem wordOfAddr_of_nibble0 {op : Nibble} (h : (nibble0 w).toNat = op.toNat) : wordOfAddr op (addr12 w) = w := by
  rw [← BitVec.eq_of_toNat_eq h, wordOfAddr_fields]

theorem wordOfRegImm_of_nibble0 {op : Nibble} (h : (nibble0 w).toNat = op.toNat) :
    wordOfRegImm op (regX w) (imm8 w) = w := by
  rw [← BitVec.eq_of_toNat_eq h, wordOfRegImm_fields]

theorem wordOfNibbles_of_nibble0 {op n : Nibble} (h : (nibble0 w).toNat = op.toNat) (hn : count4 w = n) :
    wordOfNibbles op (regX w) (regY w) n = w := by
  rw [← BitVec.eq_of_toNat_eq h, ← hn, wordOfNibbles_fields]

/-! ### What decode answers -/

/-- The instruction is well formed and its word is `w`. -/
def StandsFor (w : Word) (i : Instr) : Prop := encode i = w ∧ WellFormed i

/-- An unrecognized word stands for itself when it is in the table of R118. -/
theorem standsFor_unrecognized (h : isUnrecognizedWord w = true) : StandsFor w (.unrecognized w) := ⟨rfl, h⟩

/-- The 0x8 family, by nibble3 (R117). -/
theorem decodeAlu_standsFor (h : (nibble0 w).toNat = 0x8) : StandsFor w (decodeAlu w) := by
  have hword {n : Nibble} (hn : (count4 w).toNat = n.toNat) : wordOfNibbles 0x8#4 (regX w) (regY w) n = w :=
    wordOfNibbles_of_nibble0 h (BitVec.eq_of_toNat_eq hn)
  unfold decodeAlu
  split
  case h_10 =>
    -- The nibble3 values without an instruction are those of the table's row 8.
    apply standsFor_unrecognized
    rw [toNat_nibble0] at h
    simp only [toNat_count4, imp_false] at *
    rw [isUnrecognizedWord_iff]
    omega
  all_goals exact ⟨hword ‹_›, rfl⟩

/-- The families 5 and 9: a register pair where nibble3 is 0. -/
theorem ite_standsFor {op : Nibble} {i : Instr} (h : (nibble0 w).toNat = op.toNat) (hop : op = 0x5#4 ∨ op = 0x9#4)
    (hi : encode i = wordOfNibbles op (regX w) (regY w) 0x0#4) (hwf : WellFormed i) :
    StandsFor w (if count4 w = 0x0#4 then i else .unrecognized w) := by
  split
  case isTrue hn => exact ⟨hi.trans (wordOfNibbles_of_nibble0 h hn), hwf⟩
  case isFalse hn =>
    apply standsFor_unrecognized
    rw [← BitVec.toNat_inj, toNat_count4] at hn
    rw [toNat_nibble0] at h
    rw [isUnrecognizedWord_iff, h]
    rcases hop with rfl | rfl
    · exact .inr (.inl ⟨.inl rfl, hn⟩)
    · exact .inr (.inl ⟨.inr rfl, hn⟩)

/-- The words other than the three exact ones: the operands' word is rebuilt in the family's view. -/
theorem decodeFamily_standsFor (h0 : w ≠ 0x0000#16) (h1 : w ≠ 0x00E0#16) (h2 : w ≠ 0x00EE#16) :
    StandsFor w (decodeFamily w) := by
  unfold decodeFamily
  split
  case h_1 h | h_2 h | h_10 h | h_11 h => exact ⟨wordOfAddr_of_nibble0 h, rfl⟩
  case h_3 h | h_4 h | h_6 h | h_7 h | h_12 h => exact ⟨wordOfRegImm_of_nibble0 h, rfl⟩
  case h_5 h => exact ite_standsFor (op := 0x5#4) h (.inl rfl) rfl rfl
  case h_9 h => exact ite_standsFor (op := 0x9#4) h (.inr rfl) rfl rfl
  case h_8 h => exact decodeAlu_standsFor h
  case h_13 =>
    -- What is left is nibble0 0, without its three exact words, and D, E, F.
    apply standsFor_unrecognized
    simp only [toNat_nibble0, ← BitVec.toNat_inj, ne_eq, BitVec.toNat_ofNat, imp_false] at *
    rw [isUnrecognizedWord_iff]
    omega

/-- Every word decodes to a well-formed instruction whose word it is. -/
theorem decode_standsFor (w : Word) : StandsFor w (decode w) := by
  unfold decode
  split
  case isTrue h => exact ⟨h.symm, rfl⟩
  case isFalse h0 =>
    split
    case isTrue h => exact ⟨h.symm, rfl⟩
    case isFalse h1 =>
      split
      case isTrue h => exact ⟨h.symm, rfl⟩
      case isFalse h2 => exact decodeFamily_standsFor h0 h1 h2

theorem encode_decode (w : Word) : encode (decode w) = w := (decode_standsFor w).1

theorem decode_wellFormed (w : Word) : WellFormed (decode w) := (decode_standsFor w).2

/-! ### Decode against the rows -/

/-- A word without a row decodes to the unrecognized class. -/
theorem opcodeRow_decode_eq_none_iff (w : Word) : opcodeRow (decode w) = none ↔ decode w = .unrecognized w := by
  rw [OpcodeRow.opcodeRow_eq_none_iff, encode_decode]

theorem meets_row_of_decode {r : Word × Word} (h : opcodeRow (decode w) = some r) : w &&& r.1 = r.2 := by
  simpa only [encode_decode] using OpcodeRow.encode_meets_row (decode_wellFormed w) h

theorem meets_no_row_of_decode (h : opcodeRow (decode w) = none) : ∀ r ∈ opcodeRows, w &&& r.1 ≠ r.2 := by
  simpa only [encode_decode] using OpcodeRow.encode_meets_no_row (decode_wellFormed w) h

/-- A word meets a row exactly when it decodes to that row's instruction: it meets the row of the instruction it decodes to, and
no second one. -/
theorem meets_row_iff {r : Word × Word} (hr : r ∈ opcodeRows) : w &&& r.1 = r.2 ↔ opcodeRow (decode w) = some r := by
  refine ⟨fun h => ?_, meets_row_of_decode⟩
  cases hrow : opcodeRow (decode w) with
  | none => exact absurd h (meets_no_row_of_decode hrow r hr)
  | some r' => rw [OpcodeRow.row_unique hr (OpcodeRow.mem_opcodeRows hrow) h (meets_row_of_decode hrow)]

theorem meets_no_row_iff (w : Word) : (∀ r ∈ opcodeRows, w &&& r.1 ≠ r.2) ↔ decode w = .unrecognized w := by
  rw [← opcodeRow_decode_eq_none_iff]
  refine ⟨fun h => ?_, meets_no_row_of_decode⟩
  cases hrow : opcodeRow (decode w) with
  | none => rfl
  | some r => exact absurd (meets_row_of_decode hrow) (h r (OpcodeRow.mem_opcodeRows hrow))

/-- The unrecognized words are those the check of R118 accepts. -/
theorem decode_eq_unrecognized_iff (w : Word) : decode w = .unrecognized w ↔ isUnrecognizedWord w = true := by
  constructor
  · intro h
    have hwf := decode_wellFormed w
    rwa [h] at hwf
  · intro h
    exact (meets_no_row_iff w).1 (OpcodeRow.unrecognized w h)

/-! ### The word of an instruction -/

/-- A word of the address view is dispatched by its family. -/
theorem decode_wordOfAddr {op : Nibble} (h : op ≠ 0#4) (nnn : Addr12) :
    decode (wordOfAddr op nnn) = decodeFamily (wordOfAddr op nnn) :=
  decode_of_nibble0_ne_zero (by rwa [nibble0_wordOfAddr])

theorem decode_wordOfRegImm {op : Nibble} (h : op ≠ 0#4) (x : Nibble) (nn : Byte) :
    decode (wordOfRegImm op x nn) = decodeFamily (wordOfRegImm op x nn) :=
  decode_of_nibble0_ne_zero (by rwa [nibble0_wordOfRegImm])

theorem decode_wordOfNibbles {op : Nibble} (h : op ≠ 0#4) (x y n : Nibble) :
    decode (wordOfNibbles op x y n) = decodeFamily (wordOfNibbles op x y n) :=
  decode_of_nibble0_ne_zero (by rwa [nibble0_wordOfNibbles])

/-- The word of a well-formed instruction decodes to it: by its view, or by the table of R118. -/
theorem decode_encode {i : Instr} (h : WellFormed i) : decode (encode i) = i := by
  cases i with
  | halt | cls | ret => rfl
  | jp | call | ldI | jpV0 => simp [encode, decode_wordOfAddr, decodeFamily]
  | seImm | sneImm | ldImm | addImm | rnd => simp [encode, decode_wordOfRegImm, decodeFamily]
  | seReg | sneReg => simp [encode, decode_wordOfNibbles, decodeFamily]
  | ldReg | orReg | andReg | xorReg | addReg | sub | shr | subn | shl =>
    simp [encode, decode_wordOfNibbles, decodeFamily, decodeAlu]
  | unrecognized w => exact (decode_eq_unrecognized_iff w).2 h

end Sys2Proof
end

section
/-! The statements of the family 30_encoding. -/

namespace Sys2Proof

open Sys2Proof.Safety

/-- Settles O1, by the view of each instruction's word. -/
theorem decodeOfEncodeIsTheInstruction : Obligations.DecodeOfEncodeIsTheInstruction := fun _ h => decode_encode h

/-- Settles O2, by the split of the dispatch. -/
theorem encodeOfDecodeIsTheWord : Obligations.EncodeOfDecodeIsTheWord := encode_decode

/-- Settles O3: an instruction without a row is the unrecognized class. -/
theorem everyWordDecodesWellFormed : Obligations.EveryWordDecodesWellFormed := by
  refine fun w => ⟨decode_wellFormed w, ?_⟩
  cases hrow : opcodeRow (decode w) with
  | none => exact .inr ((opcodeRow_decode_eq_none_iff w).1 hrow)
  | some r => exact .inl ⟨r, rfl⟩

/-- Settles O4: a word meets at most one row, the row of its instruction. -/
theorem decodeFollowsTheOpcodeMap : Obligations.DecodeFollowsTheOpcodeMap :=
  ⟨fun _ _ hr => meets_row_iff hr, meets_no_row_iff⟩

/-- Settles O5, by the check of R118 in words. -/
theorem unrecognizedWordsAreTheListedOnes : Obligations.UnrecognizedWordsAreTheListedOnes := by
  intro w
  have hlt := w.isLt
  rw [decode_eq_unrecognized_iff, isUnrecognizedWord_iff]
  simp only [ne_eq, ← BitVec.toNat_inj, BitVec.toNat_ofNat, List.mem_cons, List.not_mem_nil, or_false]
  omega

/-- Settles O6. -/
theorem wordsWrittenOutDecode : Obligations.WordsWrittenOutDecode := by
  unfold Obligations.WordsWrittenOutDecode
  decide

end Sys2Proof
end

section
/-! Execute, split by whether the instruction faults (60_exceptions R231, R232), and the next PC of each class (40_cycle R147). -/

namespace Sys2Proof.Machine

/-! ### Operands and skips as the classes write them -/

theorem zextAddr_eq_append (nnn : Addr12) : zextAddr nnn = 0x0#4 ++ nnn := BitVec.setWidth_eq_append (by decide)

theorem zextByte_eq_append (b : Byte) : zextByte b = 0x00#8 ++ b := BitVec.setWidth_eq_append (by decide)

theorem State.jumpV0Target_eq_append (s : State) (nnn : Addr12) :
    s.jumpV0Target nnn = (0x0#4 ++ nnn) + (0x00#8 ++ s.getV 0x0#4) := by
  rw [State.jumpV0Target, zextAddr_eq_append, zextByte_eq_append, reg0]

/-- PC after a skip (42_flow_1_to_5 R172). -/
theorem State.skipIf_pc (s : State) (c : Bool) : (s.skipIf c).pc = if c then s.pc + 4#16 else s.pc + 2#16 := by
  rw [State.skipIf_eq, State.setPc_pc, BitVec.add_assoc, BitVec.ofNat_add_ofNat]

end Sys2Proof.Machine

namespace Sys2Proof.Safety

open Sys2Proof.Machine

/-! ### Faulting and not faulting -/

/-- Whether an instruction faults does not depend on LAST_WORD. -/
theorem faultOf_setLastWord (s : State) (w : Word) (i : Instr) : faultOf (s.setLastWord w) i = faultOf s i := by
  cases i <;> rfl

/-- An instruction that faults writes FAULT and nothing else (60_exceptions R231). -/
theorem exec_of_faultOf_eq_some {s : State} {i : Instr} {c : FaultCode} (h : faultOf s i = some c) :
    exec i s = .next (s.setFault c) := by
  cases i with
  | call nnn =>
    obtain ⟨hfull, rfl⟩ : s.sp.toNat = 12 ∧ .stackOverflow = c := by simpa [faultOf] using h
    exact exec_call_of_full hfull
  | ret =>
    obtain ⟨hempty, rfl⟩ : s.sp.toNat = 0 ∧ .stackUnderflow = c := by simpa [faultOf] using h
    exact exec_ret_of_empty (BitVec.eq_of_toNat_eq hempty)
  | jp nnn =>
    obtain ⟨hlow, rfl⟩ : nnn.toNat < s.params.jumpMin.toNat ∧ .jumpTarget = c := by simpa [faultOf] using h
    exact exec_jp_of_low hlow
  | _ => cases h

section
variable {s : State} {nnn : Addr12} {P : State → Prop}

/-- JP without its fault. -/
theorem exec_jp_ifNext_of_no_fault (h : faultOf s (.jp nnn) = none) (hjump : P (s.setPc (zextAddr nnn))) :
    IfNext P (exec (.jp nnn) s) := by
  have hlow : ¬ nnn < s.params.jumpMin := by simpa [faultOf, BitVec.lt_def] using h
  exact exec_jp_ifNext (fun hl => absurd hl hlow) fun _ => hjump

/-- CALL without its fault. -/
theorem exec_call_ifNext_of_no_fault (h : faultOf s (.call nnn) = none)
    (hroom : ∀ hs : s.sp.toNat < 12,
      P { s with stack := s.stack.set s.sp.toNat (s.pc + 2#16) hs, sp := s.sp + 1#4, pc := zextAddr nnn }) :
    IfNext P (exec (.call nnn) s) := by
  have hfull : ¬ s.sp.toNat = 12 := by simpa [faultOf] using h
  exact exec_call_ifNext (fun hf => absurd hf hfull) hroom

/-- RET without its fault. -/
theorem exec_ret_ifNext_of_no_fault (h : faultOf s .ret = none)
    (hheld : ∀ (_ : s.sp ≠ 0#4) (hs : s.sp.toNat ≤ 12),
      P { s with sp := s.sp - 1#4, pc := s.stack[s.sp.toNat - 1]'(by omega) }) :
    IfNext P (exec .ret s) := by
  have hempty : ¬ s.sp.toNat = 0 := by simpa [faultOf] using h
  exact exec_ret_ifNext (fun h0 => absurd (congrArg BitVec.toNat h0) hempty) hheld

end

/-- An instruction that does not fault leaves FAULT (60_exceptions R232). -/
theorem exec_fault_of_faultOf_eq_none {s : State} {i : Instr} (h : faultOf s i = none) :
    IfNext (fun t => t.fault = s.fault) (exec i s) := by
  cases i with
  | call nnn => exact exec_call_ifNext_of_no_fault h fun _ => rfl
  | ret => exact exec_ret_ifNext_of_no_fault h fun _ _ => rfl
  | jp nnn => exact exec_jp_ifNext_of_no_fault h rfl
  | _ => exact (exec_unchangedBut s _).imp fun _ hf => hf .fault (by simp [partsWritten])

/-- FAULT set from a state without a fault is the code of the instruction's fault, and its one write. -/
theorem exec_of_fault_set {s t : State} {i : Instr} (hs : s.fault = .none) (h : exec i s = .next t)
    (ht : t.fault ≠ .none) : faultOf s i = some t.fault ∧ t = s.setFault t.fault := by
  cases hc : faultOf s i with
  | none => exact absurd (((exec_fault_of_faultOf_eq_none hc).of_eq h).trans hs) ht
  | some c =>
    obtain rfl : s.setFault c = t := by simpa [exec_of_faultOf_eq_some hc] using h
    exact ⟨rfl, rfl⟩

/-! ### The next PC -/

/-- `a` is the PC after an instruction of this class in `s` (40_cycle R147). -/
def NextPc (s : State) (a : Word) : PcClass → Prop
  | .straight => a = s.pc + 2#16
  | .skip c => a = if c then s.pc + 4#16 else s.pc + 2#16
  | .absolute target => a = target
  | .return => s.stack[s.sp.toNat - 1]? = some a

theorem nextPc_skipIf (s : State) (c : Bool) : NextPc s (s.skipIf c).pc (.skip c) := s.skipIf_pc c

/-- An instruction that does not fault sets PC by its class. -/
theorem exec_nextPc {s : State} {i : Instr} (h : faultOf s i = none) :
    IfNext (fun t => NextPc s t.pc (pcClass s i)) (exec i s) := by
  cases i with
  | jp nnn => exact exec_jp_ifNext_of_no_fault h (zextAddr_eq_append nnn)
  | call nnn => exact exec_call_ifNext_of_no_fault h fun _ => zextAddr_eq_append nnn
  | jpV0 nnn => exact s.jumpV0Target_eq_append nnn
  | ret => exact exec_ret_ifNext_of_no_fault h fun _ _ => Vector.getElem?_eq_getElem _
  | seImm | seReg => exact nextPc_skipIf s _
  | sneImm | sneReg =>
    simp only [pcClass, ne_eq, decide_not]
    exact nextPc_skipIf s _
  | _ => rfl

end Sys2Proof.Safety
end

section
/-! The cycle of a running core (40_cycle): the guard under each parameter value, the tick, and execute on the fetched word. -/

namespace Sys2Proof.Machine

/-! ### The fetch guard (R142) -/

variable {s : State}

@[simp] theorem State.fetchGuard_params (s : State) : s.fetchGuard.params = s.params := by rw [State.fetchGuard_eq]

theorem State.fetchGuard_pc_of_reset (h : s.params.fetchOverrun = .reset) :
    s.fetchGuard.pc.toNat = if s.pc.toNat > 0xFFE then 0x200 else s.pc.toNat := by
  simp only [State.fetchGuard, h]
  split <;> rfl

theorem State.fetchGuard_pc_of_wrap (h : s.params.fetchOverrun = .wrap) :
    s.fetchGuard.pc.toNat = s.pc.toNat % 0x1000 := by
  simp only [State.fetchGuard, h, State.setPc_pc, BitVec.toNat_ofNat]
  omega

theorem State.fetchAddr1_of_reset (h : s.params.fetchOverrun = .reset) : s.fetchAddr1 = s.pc.toNat + 1 := by
  rw [State.fetchAddr1, h]

theorem State.fetchAddr1_of_wrap (h : s.params.fetchOverrun = .wrap) : s.fetchAddr1 = (s.pc.toNat + 1) % 0x1000 := by
  rw [State.fetchAddr1, h]

/-! ### The state a cycle executes on -/

/-- The tick of a cycle does not reach the guard. -/
theorem State.beginCycle_pc (s : State) : s.beginCycle.pc = s.fetchGuard.pc :=
  State.fetchGuard_pc_congr (by rw [State.cycleTick_eq]) (by rw [State.cycleTick_eq])

/-- The guard keeps the timers of the tick of a cycle (R143). -/
theorem State.beginCycle_dt_toNat (s : State) :
    s.beginCycle.dt.toNat = if s.params.timerOnCycle then s.dt.toNat - 1 else s.dt.toNat := by
  rw [State.beginCycle, State.fetchGuard_eq, State.cycleTick]
  split
  · exact countDown_toNat s.dt
  · rfl

theorem State.beginCycle_st_toNat (s : State) :
    s.beginCycle.st.toNat = if s.params.timerOnCycle then s.st.toNat - 1 else s.st.toNat := by
  rw [State.beginCycle, State.fetchGuard_eq, State.cycleTick]
  split
  · exact countDown_toNat s.st
  · rfl

end Sys2Proof.Machine

namespace Sys2Proof.Safety

open Sys2Proof.Machine

theorem unchangedBut_setLastWord (s : State) (w : Word) : UnchangedBut [.lastWord] s (s.setLastWord w) := by
  intro p hp
  cases p <;> simp [Part.Same] at hp ⊢

theorem unchangedBut_fetchGuard (s : State) : UnchangedBut [.pc] s s.fetchGuard := by
  rw [State.fetchGuard_eq]
  exact unchangedBut_setPc s _

/-- The row of no instruction names LAST_WORD (10_state R47). -/
theorem lastWord_not_mem_partsWritten (i : Instr) : .lastWord ∉ partsWritten i := by cases i <;> simp [partsWritten]

section
variable {s t : State} (hrun : Running s)
include hrun

/-- A cycle of a running core executes the fetched word, with the word in LAST_WORD (R140). -/
theorem step_eq_exec : step s = exec (decode (fetchedWord s)) (s.beginCycle.setLastWord (fetchedWord s)) :=
  step_of_running (ignoresCycle_eq_false_iff.2 hrun) s.beginCycle_fetchWord

/-- A cycle changes what its tick, its guard and its latch write, and the row of its instruction. -/
theorem step_unchangedBut (h : step s = .next t) :
    UnchangedBut (partsWritten (decode (fetchedWord s))) (s.beginCycle.setLastWord (fetchedWord s)) t :=
  (exec_unchangedBut _ _).of_eq ((step_eq_exec hrun).symm.trans h)

/-- A cycle that ends with FAULT set writes FAULT alone after the latch (R150). -/
theorem step_of_fault_set (h : step s = .next t) (ht : t.fault ≠ .none) :
    faultOf s.beginCycle (decode (fetchedWord s)) = some t.fault ∧
      t = (s.beginCycle.setLastWord (fetchedWord s)).setFault t.fault := by
  have hnone : (s.beginCycle.setLastWord (fetchedWord s)).fault = .none := hrun.beginCycle.2
  rw [← faultOf_setLastWord s.beginCycle (fetchedWord s)]
  exact exec_of_fault_set hnone ((step_eq_exec hrun).symm.trans h) ht

end

end Sys2Proof.Safety
end

section
/-! The statements of the family 40_cycle. -/

namespace Sys2Proof

open Sys2Proof.Machine Sys2Proof.Safety

/-- Settles O35: the guard under each parameter value; a faulting cycle writes no PC after it. -/
theorem fetchGuardFollowsItsParameter : Obligations.FetchGuardFollowsItsParameter := by
  refine ⟨fun s h => ?_, fun s h => ?_, fun s => ?_, fun s t hrun h ht => ?_, rfl⟩
  · exact ⟨State.fetchGuard_pc_of_reset h, rfl, State.fetchAddr1_of_reset (s.fetchGuard_params ▸ h)⟩
  · exact ⟨State.fetchGuard_pc_of_wrap h, rfl, State.fetchAddr1_of_wrap (s.fetchGuard_params ▸ h)⟩
  · refine ⟨unchangedBut_fetchGuard s, Nat.lt_succ_of_le s.fetchGuard_pc_le, ?_⟩
    rw [State.fetchGuard_fetchAddr1]
    exact Nat.mod_lt _ (by decide)
  · obtain ⟨-, hset⟩ := step_of_fault_set hrun h ht
    rw [hset]
    exact s.beginCycle_pc

/-- Settles O37: no instruction writes a timer after the tick of its cycle. -/
theorem cycleTicksOnlyWhenSo : Obligations.CycleTicksOnlyWhenSo := by
  refine ⟨fun s t hrun h => ?_, rfl⟩
  have hframe := step_unchangedBut hrun h
  have hdt : t.dt = s.beginCycle.dt := hframe .dt (dt_not_mem_partsWritten _)
  have hst : t.st = s.beginCycle.st := hframe .st (st_not_mem_partsWritten _)
  rw [hdt, hst]
  exact ⟨s.beginCycle_dt_toNat, s.beginCycle_st_toNat⟩

/-- Settles O38: no instruction writes LAST_WORD after the latch. -/
theorem lastWordIsTheFetchedWord : Obligations.LastWordIsTheFetchedWord := by
  intro s t hrun h
  have hlatch : t.lastWord = fetchedWord s := step_unchangedBut hrun h .lastWord (lastWord_not_mem_partsWritten _)
  exact ⟨hlatch, hlatch⟩

/-- Settles O39: after the latch, a cycle that faults writes FAULT alone. -/
theorem faultsArePrecise : Obligations.FaultsArePrecise := by
  intro s t hrun h ht
  obtain ⟨hcode, hset⟩ := step_of_fault_set hrun h ht
  have hlatch := (unchangedBut_setLastWord s.beginCycle (fetchedWord s)).mono (l' := [.fault, .lastWord]) (by decide)
  have hframe : UnchangedBut [.fault, .lastWord] s.beginCycle t := by
    rw [hset]
    exact hlatch.trans ((unchangedBut_setFault _ _).mono (by decide))
  exact ⟨hframe, by rw [hset]; rfl, hframe .pc (by decide), hcode⟩

/-- Settles O41, by the two cases of execute: a fault, or the next PC of the class. -/
theorem everyInstructionSetsPcByItsClass : Obligations.EveryInstructionSetsPcByItsClass := by
  refine fun i s t h => ⟨fun hnone => (exec_nextPc hnone).of_eq h, fun hsome => ?_⟩
  obtain ⟨c, hc⟩ := Option.ne_none_iff_exists'.1 hsome
  obtain rfl : s.setFault c = t := by simpa [exec_of_faultOf_eq_some hc] using h
  rfl

/-- Settles O34. -/
theorem stepRunsTheFetchedInstruction : Obligations.StepRunsTheFetchedInstruction := by
  refine ⟨fun s hs => step_of_not_running hs, ?_⟩
  rintro s _ _ hrun rfl rfl
  exact step_eq_exec hrun

/-- Settles O36: both fetch addresses are in memory, and the word is the first byte above the second. -/
theorem fetchIsBigEndian : Obligations.FetchIsBigEndian :=
  fun s => ⟨_, s.beginCycle_fetchWord, toNat_wordOfBytes _ _⟩

end Sys2Proof
end

section
/-! The 0x0 family: the word of HALT, a RET right after a CALL, and how a run stands after an instruction (60_exceptions R254). -/

namespace Sys2Proof

/-- 0x0000 is the only word that decodes to HALT: decode keeps every bit of the word (30_encoding R112). -/
theorem decode_eq_halt_iff (w : Word) : decode w = .halt ↔ w = 0x0000#16 := by
  refine ⟨fun h => ?_, fun h => h ▸ rfl⟩
  rw [← encode_decode w, h]
  rfl

end Sys2Proof

namespace Sys2Proof.Machine

/-- RET right after a push answers the pushed address as PC and SP as it was; the pushed entry stays on the stack. -/
theorem exec_ret_of_pushed {s : State} (h : s.sp.toNat < 12) (a p : Word) :
    exec .ret { s with stack := s.stack.set s.sp.toNat a h, sp := s.sp + 1#4, pc := p } =
      .next { s with stack := s.stack.set s.sp.toNat a h, pc := a } := by
  have hsp : (s.sp + 1#4).toNat = s.sp.toNat + 1 := by
    rw [BitVec.toNat_add, BitVec.toNat_ofNat]
    omega
  have h0 : s.sp + 1#4 ≠ 0#4 := fun e => by simp [e] at hsp
  rw [exec_ret_of_held h0 (by simp only [hsp]; omega)]
  simp [hsp]

end Sys2Proof.Machine

namespace Sys2Proof.Safety

open Sys2Proof.Machine

/-- What a CALL and its RET write together: SP ends as it was. -/
theorem unchangedBut_stackPc (s : State) (k : Vector Word 12) (a : Word) :
    UnchangedBut [.stack, .pc] s { s with stack := k, pc := a } := by
  intro p hp
  cases p <;> simp [Part.Same, State.getV] at hp ⊢

/-! ### How a run stands -/

theorem runEnd_eq_ended_iff (t : State) : runEnd t = .ended ↔ t.fault = .none ∧ t.halted = true := by
  unfold runEnd
  split <;> simp_all

theorem runEnd_eq_failed_iff (t : State) : runEnd t = .failed ↔ t.fault ≠ .none := by
  unfold runEnd
  split
  · simp_all
  · split <;> simp_all

/-- From a running core, HALT and no other instruction ends the run: no other row writes HALTED (10_state R40). -/
theorem exec_ended_iff {s : State} (hrun : Running s) (i : Instr) :
    IfNext (fun t => runEnd t = .ended ↔ i = .halt) (exec i s) := by
  obtain ⟨hhalted, hfault⟩ := hrun
  have hsame {t : State} (h : t.halted = s.halted) : ¬ runEnd t = .ended := by
    simp [runEnd_eq_ended_iff, h, hhalted]
  cases i with
  | halt => exact iff_of_true ((runEnd_eq_ended_iff _).2 ⟨hfault, rfl⟩) rfl
  | _ => exact (exec_unchangedBut s _).imp fun _ hf => iff_of_false (hsame (hf .halted (by simp [partsWritten]))) nofun

end Sys2Proof.Safety
end

section
/-! The statements of the family 41_system_0x0. -/

namespace Sys2Proof

open Sys2Proof.Machine Sys2Proof.Safety

/-- Settles O12: RET pops the entry that CALL pushed. -/
theorem callThenReturnResumesAfterTheCall : Obligations.CallThenReturnResumesAfterTheCall :=
  fun _ s h => ⟨_, _, exec_call_of_room h, exec_ret_of_pushed h _ _, rfl, rfl, unchangedBut_stackPc s _ _,
    fun _ hk => Vector.getElem?_set_ne h hk.symm⟩

/-- Settles O33: the words of the four families are in the table of R118. -/
theorem otherWordsOfFourFamiliesAreNoOps : Obligations.OtherWordsOfFourFamiliesAreNoOps := by
  intro w s h
  have hw : decode w = .unrecognized w := by
    rw [unrecognizedWordsAreTheListedOnes w]
    rcases h with ⟨hlow, hne⟩ | h5 | h8 | h9
    · exact .inl ⟨Nat.div_eq_of_lt hlow, hne⟩
    · exact .inr (.inl h5)
    · exact .inr (.inr (.inl h8))
    · exact .inr (.inr (.inr (.inl h9)))
  rw [hw]
  exact ⟨_, exec_unrecognized s w, rfl, rfl, (unchangedBut_emitUnrecognized s w).advance⟩

/-- Settles O52: a cycle executes the fetched word, HALT alone ends a run, and 0x0000 alone is HALT. -/
theorem haltedIsSetOnlyByTheHaltWord : Obligations.HaltedIsSetOnlyByTheHaltWord := by
  intro s t hrun h
  have hlatched : Running (s.beginCycle.setLastWord (fetchedWord s)) := hrun.beginCycle
  have hended := (exec_ended_iff hlatched _).of_eq ((step_eq_exec hrun).symm.trans h)
  exact ⟨hended.trans (decode_eq_halt_iff _), runEnd_eq_failed_iff t⟩

/-- Settles O7: HALTED is what the cycle guard tests. -/
theorem haltStopsTheCore : Obligations.HaltStopsTheCore :=
  ⟨rfl, fun s => ⟨_, exec_halt s, rfl, rfl, (unchangedBut_setHalted s).advance.mono (by decide), step_of_stopped rfl⟩⟩

/-- Settles O8: a cleared framebuffer is the empty store, which a second CLS clears to itself. -/
theorem clearScreenZeroesEveryCell : Obligations.ClearScreenZeroesEveryCell :=
  ⟨rfl, fun s => ⟨_, exec_cls s, fun k _ => s.clearFb_cell k, rfl, (unchangedBut_clearFb s).advance.mono (by decide),
    _, exec_cls _, rfl, unchangedBut_advance s.clearFb.advance⟩⟩

/-- Settles O9, by the held and the empty case of RET. -/
theorem returnPopsTheStoredAddress : Obligations.ReturnPopsTheStoredAddress := by
  refine ⟨rfl, fun s h1 h12 => ?_, fun s h => ?_⟩
  · have h0 : s.sp ≠ 0#4 := fun e => by simp [e] at h1
    exact ⟨_, exec_ret_of_held h0 h12, State.sp_pred_toNat h0, Vector.getElem?_eq_getElem _,
      (unchangedBut_spPc s _ _).mono (by decide)⟩
  · exact ⟨_, exec_ret_of_empty (BitVec.eq_of_toNat_eq h), rfl, unchangedBut_setFault s _⟩

end Sys2Proof
end

section
/-! The flow family: SP after a push, and PC after a skip on a stated condition (42_flow_1_to_5 R172). -/

namespace Sys2Proof.Machine

/-- SP + 1 as a number, where the stack has room. -/
theorem State.sp_succ_toNat {s : State} (h : s.sp.toNat < 12) : (s.sp + 1#4).toNat = s.sp.toNat + 1 := by
  rw [BitVec.toNat_add, BitVec.toNat_ofNat]
  omega

/-- PC after a skip, where the tested flag stands for `p`. -/
theorem State.skipIf_pc_of_iff (s : State) {c : Bool} {p : Prop} [Decidable p] (h : c = true ↔ p) :
    (s.skipIf c).pc = if p then s.pc + 4#16 else s.pc + 2#16 :=
  (s.skipIf_pc c).trans (if_congr h rfl rfl)

end Sys2Proof.Machine
end

section
/-! The statements of the family 42_flow_1_to_5. -/

namespace Sys2Proof

open Sys2Proof.Machine Sys2Proof.Safety

/-- Settles O10, by the accepted and the faulting case of JP. -/
theorem jumpGoesToTheTargetOrFaults : Obligations.JumpGoesToTheTargetOrFaults := by
  refine ⟨fun nnn => decode_encode (i := .jp nnn) rfl, fun nnn s h => ?_, fun nnn s h => ?_, rfl⟩
  · exact ⟨_, exec_jp_of_not_low (Nat.not_lt.2 h), zextAddr_toNat nnn, unchangedBut_setPc s _⟩
  · exact ⟨_, exec_jp_of_low h, rfl, unchangedBut_setFault s _⟩

/-- Settles O11, by CALL with room and with a full stack. -/
theorem callPushesTheNextAddressOrFaults : Obligations.CallPushesTheNextAddressOrFaults := by
  refine ⟨fun nnn => decode_encode (i := .call nnn) rfl, fun nnn s h => ?_, fun nnn s h => ?_⟩
  · exact ⟨_, exec_call_of_room h, Vector.getElem?_set_self h, fun _ hk => Vector.getElem?_set_ne h hk.symm,
      State.sp_succ_toNat h, zextAddr_toNat nnn, (unchangedBut_stackSpPc s _ _ _).mono (by decide)⟩
  · exact ⟨_, exec_call_of_full h, rfl, unchangedBut_setFault s _⟩

/-- Settles O14. -/
theorem skipIfEqualImmediate : Obligations.SkipIfEqualImmediate :=
  ⟨fun x nn => decode_encode (i := .seImm x nn) rfl,
    fun x nn s => ⟨_, exec_seImm s x nn, s.skipIf_pc_of_iff beq_iff_eq, unchangedBut_skipIf s _⟩⟩

/-- Settles O15. -/
theorem skipIfNotEqualImmediate : Obligations.SkipIfNotEqualImmediate :=
  ⟨fun x nn => decode_encode (i := .sneImm x nn) rfl,
    fun x nn s => ⟨_, exec_sneImm s x nn, s.skipIf_pc_of_iff bne_iff_ne, unchangedBut_skipIf s _⟩⟩

/-- Settles O16. -/
theorem skipIfEqualRegister : Obligations.SkipIfEqualRegister :=
  ⟨fun x y => decode_encode (i := .seReg x y) rfl,
    fun x y s => ⟨_, exec_seReg s x y, s.skipIf_pc_of_iff beq_iff_eq, unchangedBut_skipIf s _⟩⟩

end Sys2Proof
end

section
/-! The immediate family: one register written, then the next PC (43_imm_6_7 R185, R186). -/

namespace Sys2Proof.Machine

variable (s : State)

theorem State.setV_getV_same (x : Nibble) (b : Byte) : (s.setV x b).getV x = b := by simp

theorem State.setV_getV_of_ne {x r : Nibble} (h : r ≠ x) (b : Byte) : (s.setV x b).getV r = s.getV r := by simp [h]

theorem State.addend7_toNat (nn : Byte) : (s.addend7 nn).toNat = if s.params.add7PlusOne then 1 else nn.toNat :=
  apply_ite BitVec.toNat _ _ _

end Sys2Proof.Machine

namespace Sys2Proof.Safety

open Sys2Proof.Machine

/-- The frame of an instruction that writes one register and goes on to the next. -/
theorem unchangedBut_setV_advance (s : State) (x : Nibble) (b : Byte) : UnchangedBut [.v, .pc] s (s.setV x b).advance :=
  (unchangedBut_setV s x b).advance.mono (by decide)

end Sys2Proof.Safety
end

section
/-! The statements of the family 43_imm_6_7. -/

namespace Sys2Proof

open Sys2Proof.Machine Sys2Proof.Safety

/-- Settles O18. -/
theorem loadImmediateWritesNN : Obligations.LoadImmediateWritesNN :=
  ⟨fun x nn => decode_encode (i := .ldImm x nn) rfl,
    fun x nn s => ⟨_, exec_ldImm s x nn, s.setV_getV_same x nn, rfl, fun _ hr => s.setV_getV_of_ne hr nn,
      unchangedBut_setV_advance s x nn⟩⟩

/-- Settles O19: the sum of bytes is the sum of their numbers modulo 256, and V[X] alone is written. -/
theorem addImmediateWrapsWithoutFlag : Obligations.AddImmediateWrapsWithoutFlag := by
  refine ⟨fun x nn => decode_encode (i := .addImm x nn) rfl, fun x nn s => ?_, rfl⟩
  have hsum : (s.getV x + s.addend7 nn).toNat =
      ((s.getV x).toNat + if s.params.add7PlusOne then 1 else nn.toNat) % 256 := by
    rw [BitVec.toNat_add, s.addend7_toNat]
  exact ⟨_, exec_addImm s x nn, (congrArg BitVec.toNat (s.setV_getV_same x _)).trans hsum, rfl,
    fun _ hr => s.setV_getV_of_ne hr _, unchangedBut_setV_advance s x _⟩

end Sys2Proof
end

section
/-! The 0x8 family: results as numbers, what the two orders of writing leave in V[X] and VF (44_alu_8 R191), and the frames. -/

namespace Sys2Proof.Machine

/-! ### Results and carry as numbers -/

/-- A difference of bytes, with the borrow made up by 256 (44_alu_8 R202). -/
theorem byte_sub_toNat (a b : Byte) : (a - b).toNat = (256 + a.toNat - b.toNat) % 256 := by
  have hb := b.isLt
  rw [BitVec.toNat_sub]
  omega

theorem byte_shiftRight_one_toNat (b : Byte) : (b >>> 1).toNat = b.toNat / 2 := by
  rw [BitVec.toNat_ushiftRight, Nat.shiftRight_eq_div_pow, Nat.pow_one]

theorem byte_shiftLeft_one_toNat (b : Byte) : (b <<< 1).toNat = 2 * b.toNat % 256 := by
  rw [BitVec.toNat_shiftLeft, Nat.shiftLeft_eq, Nat.pow_one, Nat.mul_comm]

/-- The carry is the part of the exact sum above its low byte (R196). -/
theorem carryFlag_toNat_eq_div (a b : Byte) : (carryFlag a b).toNat = (a.toNat + b.toNat) / 256 := by
  have ha := a.isLt
  have hb := b.isLt
  rw [carryFlag_toNat]
  split <;> omega

/-! ### The two orders of writing (R191) -/

variable (s : State) {x r : Nibble} (result flag : Byte)

theorem State.writeResultThenFlag_getV_result (h : x ≠ 0xF#4) :
    (s.writeResultThenFlag x result flag).getV x = result := by
  rw [State.getV_writeResultThenFlag, if_neg h, if_pos rfl]

theorem State.writeResultThenFlag_getV_flag : (s.writeResultThenFlag x result flag).getV 0xF#4 = flag := by
  rw [State.getV_writeResultThenFlag, if_pos rfl]

theorem State.writeResultThenFlag_getV_of_ne (hx : r ≠ x) (hF : r ≠ 0xF#4) :
    (s.writeResultThenFlag x result flag).getV r = s.getV r := by
  rw [State.getV_writeResultThenFlag, if_neg hF, if_neg hx]

theorem State.writeFlagThenResult_getV_result : (s.writeFlagThenResult x result flag).getV x = result := by
  rw [State.getV_writeFlagThenResult, if_pos rfl]

theorem State.writeFlagThenResult_getV_flag (h : x ≠ 0xF#4) :
    (s.writeFlagThenResult x result flag).getV 0xF#4 = flag := by
  rw [State.getV_writeFlagThenResult, if_neg h.symm, if_pos rfl]

theorem State.writeFlagThenResult_getV_of_ne (hx : r ≠ x) (hF : r ≠ 0xF#4) :
    (s.writeFlagThenResult x result flag).getV r = s.getV r := by
  rw [State.getV_writeFlagThenResult, if_neg hx, if_neg hF]

end Sys2Proof.Machine

namespace Sys2Proof.Safety

open Sys2Proof.Machine

/-! ### What an ALU instruction keeps, with its next PC -/

variable (s : State) (x : Nibble) (result flag : Byte)

/-- R192 to R195 write V[X] and PC. -/
theorem setV_advance_frame :
    (s.setV x result).advance.pc = s.pc + 2#16 ∧ (∀ r, r ≠ x → (s.setV x result).advance.getV r = s.getV r) ∧
      UnchangedBut [.v, .pc] s (s.setV x result).advance :=
  ⟨rfl, fun _ hr => s.setV_getV_of_ne hr result, unchangedBut_setV_advance s x result⟩

/-- R196, R197 and R199 write V[X], VF and PC. -/
theorem writeResultThenFlag_advance_frame :
    (s.writeResultThenFlag x result flag).advance.pc = s.pc + 2#16 ∧
      (∀ r, r ≠ x → r ≠ 0xF#4 → (s.writeResultThenFlag x result flag).advance.getV r = s.getV r) ∧
      UnchangedBut [.v, .pc] s (s.writeResultThenFlag x result flag).advance :=
  ⟨rfl, fun _ hx hF => s.writeResultThenFlag_getV_of_ne result flag hx hF,
    (unchangedBut_writeResultThenFlag s x result flag).advance.mono (by decide)⟩

/-- R198 and R200 write VF, V[X] and PC. -/
theorem writeFlagThenResult_advance_frame :
    (s.writeFlagThenResult x result flag).advance.pc = s.pc + 2#16 ∧
      (∀ r, r ≠ x → r ≠ 0xF#4 → (s.writeFlagThenResult x result flag).advance.getV r = s.getV r) ∧
      UnchangedBut [.v, .pc] s (s.writeFlagThenResult x result flag).advance :=
  ⟨rfl, fun _ hx hF => s.writeFlagThenResult_getV_of_ne result flag hx hF,
    (unchangedBut_writeFlagThenResult s x result flag).advance.mono (by decide)⟩

end Sys2Proof.Safety
end

section
/-! The statements of the family 44_alu_8. -/

namespace Sys2Proof

open Sys2Proof.Machine Sys2Proof.Safety

/-- Settles O24: the flag is written last, so VF is the carry for every X. -/
theorem addWritesSumThenCarry : Obligations.AddWritesSumThenCarry := by
  refine ⟨fun x y => decode_encode (i := .addReg x y) rfl, fun x y s =>
    ⟨_, exec_addReg s x y, fun hx => ?_, ?_, writeResultThenFlag_advance_frame s x _ _⟩⟩
  · rw [State.advance_getV, s.writeResultThenFlag_getV_result _ _ hx, BitVec.toNat_add]
  · rw [State.advance_getV, s.writeResultThenFlag_getV_flag, carryFlag_toNat_eq_div]

/-- Settles O25: the flag is written last, so VF is NOT borrow for every X. -/
theorem subWritesDifferenceThenNotBorrow : Obligations.SubWritesDifferenceThenNotBorrow := by
  refine ⟨fun x y => decode_encode (i := .sub x y) rfl, fun x y s =>
    ⟨_, exec_sub s x y, fun hx => ?_, ?_, writeResultThenFlag_advance_frame s x _ _⟩⟩
  · rw [State.advance_getV, s.writeResultThenFlag_getV_result _ _ hx, byte_sub_toNat]
  · rw [State.advance_getV, s.writeResultThenFlag_getV_flag, notBorrowFlag_toNat]

/-- Settles O26: the result is written last, so V[X] is the shifted byte for every X. -/
theorem shiftRightWritesFlagThenHalf : Obligations.ShiftRightWritesFlagThenHalf := by
  refine ⟨fun x y => decode_encode (i := .shr x y) rfl, fun x y s =>
    ⟨_, exec_shr s x y, ?_, fun hx => ?_, writeFlagThenResult_advance_frame s x _ _⟩⟩
  · rw [State.advance_getV, s.writeFlagThenResult_getV_result, byte_shiftRight_one_toNat]
  · rw [State.advance_getV, s.writeFlagThenResult_getV_flag _ _ hx, shrOutFlag_toNat]

/-- Settles O27: as O25, with the operands exchanged. -/
theorem subtractReversedWritesDifferenceThenNotBorrow : Obligations.SubtractReversedWritesDifferenceThenNotBorrow := by
  refine ⟨fun x y => decode_encode (i := .subn x y) rfl, fun x y s =>
    ⟨_, exec_subn s x y, fun hx => ?_, ?_, writeResultThenFlag_advance_frame s x _ _⟩⟩
  · rw [State.advance_getV, s.writeResultThenFlag_getV_result _ _ hx, byte_sub_toNat]
  · rw [State.advance_getV, s.writeResultThenFlag_getV_flag, notBorrowFlag_toNat]

/-- Settles O28: the result is written last, so V[X] is the shifted byte for every X. -/
theorem shiftLeftWritesFlagThenDouble : Obligations.ShiftLeftWritesFlagThenDouble := by
  refine ⟨fun x y => decode_encode (i := .shl x y) rfl, fun x y s =>
    ⟨_, exec_shl s x y, ?_, fun hx => ?_, writeFlagThenResult_advance_frame s x _ _⟩⟩
  · rw [State.advance_getV, s.writeFlagThenResult_getV_result, byte_shiftLeft_one_toNat]
  · rw [State.advance_getV, s.writeFlagThenResult_getV_flag _ _ hx, shlOutFlag_toNat]

/-- Settles O20. -/
theorem loadRegisterCopies : Obligations.LoadRegisterCopies :=
  ⟨fun x y => decode_encode (i := .ldReg x y) rfl,
    fun x y s => ⟨_, exec_ldReg s x y, s.setV_getV_same x _, setV_advance_frame s x _⟩⟩

/-- Settles O21, bit by bit. -/
theorem orWritesTheBitwiseOr : Obligations.OrWritesTheBitwiseOr := by
  refine ⟨fun x y => decode_encode (i := .orReg x y) rfl,
    fun x y s => ⟨_, exec_orReg s x y, fun k => ?_, setV_advance_frame s x _⟩⟩
  rw [State.advance_getV, s.setV_getV_same, BitVec.getLsbD_or]

/-- Settles O22, bit by bit. -/
theorem andWritesTheBitwiseAnd : Obligations.AndWritesTheBitwiseAnd := by
  refine ⟨fun x y => decode_encode (i := .andReg x y) rfl,
    fun x y s => ⟨_, exec_andReg s x y, fun k => ?_, setV_advance_frame s x _⟩⟩
  rw [State.advance_getV, s.setV_getV_same, BitVec.getLsbD_and]

/-- Settles O23, bit by bit. -/
theorem xorWritesTheExclusiveOr : Obligations.XorWritesTheExclusiveOr := by
  refine ⟨fun x y => decode_encode (i := .xorReg x y) rfl,
    fun x y s => ⟨_, exec_xorReg s x y, fun k => ?_, setV_advance_frame s x _⟩⟩
  rw [State.advance_getV, s.setV_getV_same, BitVec.getLsbD_xor]

end Sys2Proof
end

section
/-! The family 45_9_to_C: the target of BNNN as a number (R213), and the output of one event (R216). -/

namespace Sys2Proof.Machine

/-- The target is the exact sum: no 12-bit address and byte add up to 2 ^ 16. -/
theorem State.jumpV0Target_toNat (s : State) (nnn : Addr12) :
    (s.jumpV0Target nnn).toNat = nnn.toNat + (s.getV 0x0#4).toNat := by
  rw [State.jumpV0Target, BitVec.toNat_add_of_lt (by simp only [zextAddr_toNat, zextByte_toNat]; omega),
    zextAddr_toNat, zextByte_toNat, reg0]

/-- The target is at most 0xFFF + 0xFF. -/
theorem State.jumpV0Target_toNat_le (s : State) (nnn : Addr12) : (s.jumpV0Target nnn).toNat ≤ 0x10FE := by
  have hnnn := nnn.isLt
  have hv := (s.getV 0x0#4).isLt
  rw [s.jumpV0Target_toNat]
  omega

/-- A step that adds one event to the history shows it on the output. -/
theorem unrecOutput_of_events_cons {s t : State} {e : UnrecEvent} (h : t.events = e :: s.events) :
    unrecOutput s t = some e := by
  rw [unrecOutput, h, if_neg (List.cons_ne_self e s.events), List.head?_cons]

end Sys2Proof.Machine
end

section
/-! The statements of the family 45_9_to_C. -/

namespace Sys2Proof

open Sys2Proof.Machine Sys2Proof.Safety

/-- Settles O17. -/
theorem skipIfNotEqualRegister : Obligations.SkipIfNotEqualRegister :=
  ⟨fun x y => decode_encode (i := .sneReg x y) rfl,
    fun x y s => ⟨_, exec_sneReg s x y, s.skipIf_pc_of_iff bne_iff_ne, unchangedBut_skipIf s _⟩⟩

/-- Settles O29. -/
theorem loadIndexWritesNNN : Obligations.LoadIndexWritesNNN :=
  ⟨fun nnn => decode_encode (i := .ldI nnn) rfl,
    fun nnn s => ⟨_, exec_ldI s nnn, zextAddr_toNat nnn, rfl, (unchangedBut_setI s _).advance.mono (by decide)⟩⟩

/-- Settles O30: the 16-bit sum does not overflow. -/
theorem computedJumpAddsVZero : Obligations.ComputedJumpAddsVZero :=
  ⟨fun nnn => decode_encode (i := .jpV0 nnn) rfl,
    fun nnn s => ⟨_, exec_jpV0 s nnn, s.jumpV0Target_toNat nnn, s.jumpV0Target_toNat_le nnn, unchangedBut_setPc s _⟩⟩

/-- Settles O31: V[X] is the masked byte, whatever byte was sampled. -/
theorem randomIsMaskedByNN : Obligations.RandomIsMaskedByNN := by
  refine ⟨fun x nn => decode_encode (i := .rnd x nn) rfl, fun x nn s => ?_⟩
  have hv : (s.drawRnd.2.setV x (Config.rnd s.rndDraws &&& nn)).advance.getV x = Config.rnd s.rndDraws &&& nn := by
    rw [State.advance_getV, State.setV_getV_same]
  refine ⟨_, exec_rnd s x nn, hv, rfl, fun k hk => ?_, fun h0 => ?_, rfl,
    fun _ hr => State.setV_getV_of_ne _ hr _, ((unchangedBut_drawRnd s).setV _ _).advance.mono (by decide)⟩
  · rw [hv, BitVec.getLsbD_and, hk, Bool.and_false]
  · rw [hv, h0, BitVec.and_zero]

/-- Settles O32: the event is the one that the history gains. -/
theorem unrecognizedWordIsALoggedNoOp : Obligations.UnrecognizedWordIsALoggedNoOp :=
  fun w s => ⟨_, exec_unrecognized s w, rfl, rfl, unrecOutput_of_events_cons rfl,
    (unchangedBut_emitUnrecognized s w).advance⟩

end Sys2Proof
end

section
/-! The family 60_exceptions: the cycle that faults and the one that does not (R232), and what a tick, a cycle and a step of
the host protocol do to the timers (R243 to R246). -/

namespace Sys2Proof.Safety

open Sys2Proof.Machine

/-! ### Faults of a cycle -/

section
variable {s : State} (hrun : Running s)
include hrun

/-- A cycle whose instruction faults records the code after the latch, and does nothing else (R231). -/
theorem step_of_faultOf_eq_some {c : FaultCode} (h : faultOf s.beginCycle (decode (fetchedWord s)) = some c) :
    step s = .next ((s.beginCycle.setLastWord (fetchedWord s)).setFault c) :=
  (step_eq_exec hrun).trans (exec_of_faultOf_eq_some ((faultOf_setLastWord ..).trans h))

/-- A cycle whose instruction does not fault leaves FAULT at NONE. -/
theorem step_fault_of_faultOf_eq_none (h : faultOf s.beginCycle (decode (fetchedWord s)) = none) :
    IfNext (fun t => t.fault = .none) (step s) := by
  rw [step_eq_exec hrun]
  have hkept := exec_fault_of_faultOf_eq_none ((faultOf_setLastWord _ (fetchedWord s) _).trans h)
  exact hkept.imp fun _ hf => hf.trans hrun.beginCycle.2

end

/-! ### The timers of an instruction and of a cycle -/

/-- No instruction reads or writes a timer: executing after replacing both is executing and then replacing them (R246). -/
theorem exec_setTimers (i : Instr) (s : State) (d e : Byte) :
    exec i { s with dt := d, st := e } = mapNext (fun t => { t with dt := d, st := e }) (exec i s) :=
  exec_replaceUnread none none (some d) (some e) i s fun _ _ => rfl

/-- A cycle that does not tick leaves both timers: the parameter is off, or the guard ignores the cycle (40_cycle R141, R143). -/
theorem step_timers_of_no_tick {s : State} (h : s.params.timerOnCycle = false ∨ ¬ Running s) :
    IfNext (fun t => t.dt = s.dt ∧ t.st = s.st) (step s) := by
  by_cases hrun : Running s
  · have hoff : s.params.timerOnCycle = false := h.resolve_right (not_not_intro hrun)
    have hbegin : s.beginCycle.dt = s.dt ∧ s.beginCycle.st = s.st := by
      rw [State.beginCycle, State.fetchGuard_eq, State.cycleTick, hoff]
      exact ⟨rfl, rfl⟩
    rw [step_eq_exec hrun]
    exact (exec_unchangedBut _ _).imp fun t hf =>
      ⟨Eq.trans (hf .dt (dt_not_mem_partsWritten _)) hbegin.1, Eq.trans (hf .st (st_not_mem_partsWritten _)) hbegin.2⟩
  · rw [step_of_not_running hrun]
    exact ⟨rfl, rfl⟩

/-! ### The timers of a step of the host protocol -/

/-- Every step of the host protocol keeps zero timers, whatever it presents. -/
theorem hostStep_timersZero (input : HostInput) {s : State} (h : TimersZero s) :
    IfNext TimersZero (hostStep input s) := by
  have htick := h.tickWhen input.tick
  rcases hostStep_cases input s with ⟨-, hs⟩ | ⟨-, -, hs⟩ | ⟨image, -, -, hs⟩ | ⟨-, -, hs⟩ <;> rw [hs]
  · exact ⟨rfl, rfl⟩
  · exact htick
  · exact htick.of_unchangedBut (unchangedBut_load _ image) (by decide) (by decide)
  · exact step_timersZero htick

/-- A step with no RST and no tick of either kind leaves both timers. -/
theorem hostStep_timers_of_no_tick {input : HostInput} {s : State} (hrst : input.rst = false) (htick : input.tick = false)
    (h : s.params.timerOnCycle = false ∨ input.request ≠ some .cycle ∨ ¬ Running s) :
    IfNext (fun t => t.dt = s.dt ∧ t.st = s.st) (hostStep input s) := by
  have hsame : s.tickWhen input.tick = s := by rw [htick]; rfl
  rcases hostStep_cases input s with ⟨h1, -⟩ | ⟨-, -, hs⟩ | ⟨image, -, -, hs⟩ | ⟨-, hcycle, hs⟩
  · exact absurd (hrst.symm.trans h1) Bool.false_ne_true
  · rw [hs, hsame]
    exact ⟨rfl, rfl⟩
  · rw [hs, hsame]
    have hload := unchangedBut_load s image
    exact ⟨hload .dt (by decide), hload .st (by decide)⟩
  · rw [hs, hsame]
    exact step_timers_of_no_tick (h.imp_right fun hor => hor.resolve_left (not_not_intro hcycle))

/-! ### A tick before a cycle -/

theorem hostStep_tick (s : State) : hostStep ⟨false, true, none⟩ s = .next s.tick := rfl

/-- The TICK of a step comes before its cycle (R244). -/
theorem hostStep_tick_cycle (s : State) : hostStep ⟨false, true, some .cycle⟩ s = step s.tick := rfl

/-- Forgetting the timers after an instruction is forgetting them before it. -/
theorem mapNext_forgetTimers_exec (i : Instr) (s : State) :
    mapNext forgetTimers (exec i s) = exec i (forgetTimers s) := (exec_setTimers i s 0x00#8 0x00#8).symm

/-- A tick does not reach the fetch. -/
theorem fetchedWord_tick (s : State) : fetchedWord s.tick = fetchedWord s := by
  obtain ⟨h0, h1⟩ := State.fetchGuard_fetchAddrs_congr (s := s) (t := s.tick) rfl rfl
  rw [fetchedWord_eq, fetchedWord_eq, h0, h1]
  rfl

/-- Up to the timers, a cycle starts its execute on the same state with and without a tick before it. -/
theorem forgetTimers_beginCycle_tick (s : State) :
    forgetTimers s.tick.beginCycle = forgetTimers s.beginCycle := by
  have hpc : s.tick.beginCycle.pc = s.beginCycle.pc := by
    rw [State.beginCycle_pc, State.beginCycle_pc]
    exact State.fetchGuard_pc_congr rfl rfl
  rw [State.beginCycle_eq s.tick, State.beginCycle_eq s, hpc]
  rfl

/-- Up to the timers, a cycle answers the same with and without a tick before it (R246). -/
theorem mapNext_forgetTimers_step_tick (s : State) :
    mapNext forgetTimers (step s.tick) = mapNext forgetTimers (step s) := by
  by_cases hrun : Running s
  · have hrun' : Running s.tick := hrun
    rw [step_eq_exec hrun, step_eq_exec hrun', fetchedWord_tick, mapNext_forgetTimers_exec, mapNext_forgetTimers_exec]
    exact congrArg (fun g => exec (decode (fetchedWord s)) (g.setLastWord (fetchedWord s))) (forgetTimers_beginCycle_tick s)
  · have hrun' : ¬ Running s.tick := hrun
    rw [step_of_not_running hrun, step_of_not_running hrun']
    rfl

end Sys2Proof.Safety
end

section
/-! The statements of the family 60_exceptions. -/

namespace Sys2Proof

open Sys2Proof.Machine Sys2Proof.Safety

/-- Settles O40: a cycle is its faulting and its other case. -/
theorem faultsHaveExactlyThreeCauses : Obligations.FaultsHaveExactlyThreeCauses := by
  refine ⟨fun s t hrun h => ⟨fun c hc => ?_, fun hnone => (step_fault_of_faultOf_eq_none hrun hnone).of_eq h⟩,
    rfl, rfl, rfl, rfl⟩
  obtain rfl : (s.beginCycle.setLastWord (fetchedWord s)).setFault c = t := by
    simpa [step_of_faultOf_eq_some hrun hc] using h
  exact ⟨rfl, rfl, rfl⟩

/-- Settles O46: the timers are among the pieces no instruction reads or writes. -/
theorem timersAreUntouchedByInstructions : Obligations.TimersAreUntouchedByInstructions :=
  ⟨exec_setTimers, ⟨rfl, rfl⟩, fun input _ _ hz h => (hostStep_timersZero input hz).of_eq h,
    fun _ _ _ hrst htick hno h => (hostStep_timers_of_no_tick hrst htick hno).of_eq h⟩

/-- Settles O57: the tick of a cycle under P_TIMER_ON_CYCLE, once from the state and once from the state after the TICK. -/
theorem tickWithCycleComesFirst : Obligations.TickWithCycleComesFirst := by
  have hcycle (s t : State) (hrun : Running s) (hon : s.params.timerOnCycle = true) (h : step s = .next t) :
      t.dt.toNat = s.dt.toNat - 1 ∧ t.st.toNat = s.st.toNat - 1 := by
    simpa [hon] using cycleTicksOnlyWhenSo.1 s t hrun h
  refine ⟨fun s => ⟨hostStep_tick s, hostStep_tick_cycle s⟩, hcycle, fun s t hrun hon h => ?_,
    mapNext_forgetTimers_step_tick⟩
  obtain ⟨hdt, hst⟩ := hcycle s.tick t hrun hon h
  have hdt1 : s.tick.dt.toNat = s.dt.toNat - 1 := countDown_toNat s.dt
  have hst1 : s.tick.st.toNat = s.st.toNat - 1 := countDown_toNat s.st
  omega

/-- Settles O56: the tick does not ask whether the core runs. -/
theorem tickCountsBothTimersDown : Obligations.TickCountsBothTimersDown :=
  fun s => ⟨s.tick, hostStep_tick s, countDown_toNat s.dt, countDown_toNat s.st, unchangedBut_tick s⟩

end Sys2Proof
end

section
/-! The family 70_reset_and_hazards: what the load writes, byte by byte (R275, R276), and the first cycle after reset (R271). -/

namespace Sys2Proof.Machine

/-! ### The load -/

/-- Writing a run of bytes leaves every byte above it. -/
theorem Memory.byteAt_writeBytes_above {m : Memory} (h : m.wf = true) {a q : Nat} {image : List Byte}
    (hq : a + image.length ≤ q) : (m.writeBytes a image).byteAt q = m.byteAt q := by
  induction image generalizing m a with
  | nil => rfl
  | cons b rest ih =>
    simp only [List.length_cons] at hq
    calc (m.writeBytes a (b :: rest)).byteAt q
        = (m.write a b).byteAt q := ih (Memory.write_wf h a b) (by omega)
      _ = m.byteAt q := Memory.byteAt_write_of_ne h (by omega) b

/-- A run of bytes that ends inside MEM is read back byte by byte: the first is below the rest of the run. -/
theorem Memory.byteAt_writeBytes_inside {m : Memory} (h : m.wf = true) {a k : Nat} {image : List Byte}
    (hfits : a + image.length ≤ 4096) (hk : k < image.length) :
    (m.writeBytes a image).byteAt (a + k) = image[k] := by
  induction image generalizing m a k with
  | nil => simp at hk
  | cons b rest ih =>
    simp only [List.length_cons] at hfits hk
    have hw : (m.write a b).wf = true := Memory.write_wf h a b
    cases k with
    | zero =>
      calc (m.writeBytes a (b :: rest)).byteAt a
          = (m.write a b).byteAt a := Memory.byteAt_writeBytes_below hw (by omega) rest
        _ = b := by rw [Memory.byteAt_write h (by omega), if_pos rfl]
    | succ k =>
      rw [show a + (k + 1) = a + 1 + k by omega]
      exact ih hw (by omega) (by omega)

theorem State.load_of_fits (s : State) {image : List Byte} (h : image.length ≤ 3584) :
    s.load image = ((s.setMem (Memory.writeBytes [] 0x200 image)).setPc 0x0200#16).setLoadStatus .ok :=
  if_neg (Nat.not_lt.2 h)

theorem State.load_of_oversize (s : State) {image : List Byte} (h : 3584 < image.length) :
    s.load image = s.setLoadStatus .loadError := if_pos h

theorem hostStep_load (image : List Byte) (s : State) :
    hostStep ⟨false, false, some (.load image)⟩ s = .next (s.load image) := rfl

/-! ### The fetch after reset -/

/-- The guard leaves a PC with both bytes of its word in memory, under either value of P_FETCH_OVERRUN (40_cycle R142). -/
theorem State.fetchGuard_pc_of_le {s : State} (h : s.pc.toNat ≤ 0xFFE) : s.fetchGuard.pc = s.pc := by
  apply BitVec.eq_of_toNat_eq
  cases hp : s.params.fetchOverrun with
  | reset => rw [State.fetchGuard_pc_of_reset hp, if_neg (by omega)]
  | wrap => rw [State.fetchGuard_pc_of_wrap hp, Nat.mod_eq_of_lt (by omega)]

end Sys2Proof.Machine

namespace Sys2Proof.Safety

open Sys2Proof.Machine

theorem running_resetCore (s : State) : Running s.resetCore := ⟨rfl, rfl⟩

/-- Reset's memory is zero at every address, so at the two addresses fetched (R271). -/
theorem fetchedWord_resetCore (s : State) : fetchedWord s.resetCore = 0x0000#16 := by
  obtain ⟨hzero, -⟩ := resetGivesEveryStatedValue s s.resetCore (.inl rfl)
  rw [fetchedWord_eq, hzero, hzero]
  rfl

/-- A cycle of a running core that fetches 0x0000 executes HALT (41_system_0x0 R160). -/
theorem step_of_fetchedWord_eq_zero {s : State} (hrun : Running s) (h : fetchedWord s = 0x0000#16) :
    step s = .next (s.beginCycle.setLastWord 0x0000#16).setHalted.advance := by
  rw [step_eq_exec hrun, h, (decode_eq_halt_iff _).2 rfl, exec_halt]

end Sys2Proof.Safety
end

section
/-! The statements of the family 70_reset_and_hazards. -/

namespace Sys2Proof

open Sys2Proof.Machine Sys2Proof.Safety

/-- Settles O55: an image that fits ends inside MEM, and the load writes it over a memory that lists no byte. -/
theorem loadPlacesTheImage : Obligations.LoadPlacesTheImage := by
  refine ⟨fun s image hfits => ⟨s.load image, hostStep_load image s, ?_⟩,
    fun s image hover => ⟨s.load image, hostStep_load image s, ?_⟩⟩
  · have hframe := unchangedBut_load s image
    rw [State.load_of_fits s hfits] at hframe ⊢
    refine ⟨fun k hk => ?_, fun a ha => ?_, rfl, rfl, hframe⟩
    · exact Memory.byteAt_writeBytes_inside (m := []) rfl (by omega) hk
    · rcases ha with hbelow | habove
      · exact Memory.byteAt_writeBytes_below (m := []) rfl hbelow image
      · exact Memory.byteAt_writeBytes_above (m := []) rfl habove
  · rw [State.load_of_oversize s hover]
    exact ⟨rfl, unchangedBut_setLoadStatus s _⟩

/-- Settles O54: PC 0x200 passes the guard, and the word fetched there is HALT. -/
theorem firstCycleAfterResetHalts : Obligations.FirstCycleAfterResetHalts := by
  intro s
  have hpc : s.resetCore.beginCycle.pc = 0x0200#16 :=
    (State.beginCycle_pc _).trans (State.fetchGuard_pc_of_le (show 0x200 ≤ 0xFFE by decide))
  refine ⟨rfl, _, step_of_fetchedWord_eq_zero (running_resetCore s) (fetchedWord_resetCore s), rfl, ?_, rfl⟩
  exact congrArg (· + 2#16) hpc

end Sys2Proof
end
